-- ==== Sys2Proof/Word.lean ====
section
/-! DEFINITION. The fixed-width words of the HQ-3 (conventions of 00_scope.md): bytes of a frame, 16-bit samples and
configuration values, the 32-bit tick, hc and sequence numbers, and the 48-bit accumulator values. -/

namespace Sys2Proof

/-- One byte of a frame (10.4). -/
abbrev Byte := BitVec 8
/-- A sample, a configuration value, an identity counter, a generation, the epoch or the integrity code. -/
abbrev W16 := BitVec 16
/-- The tick counter, the hc counter, a sequence number. -/
abbrev W32 := BitVec 32
/-- An accumulator value or a baseline. -/
abbrev W48 := BitVec 48

end Sys2Proof
end

