-- ==== Sys2Proof/Syntax.lean ====
section
/-! DEFINITION. The commands of the HQ-3: one constructor of `Instr` for each row of spec/opcode_table.json, and the typed
requests that a request frame carries (request codes and payloads of 10.5). -/

namespace Sys2Proof

/-- The three host ports (00_scope.md). -/
inductive Port where
  | a | b | c
  deriving DecidableEq, Repr

/-- The two synchronous ports, A and B (9.2). -/
inductive SyncId where
  | a | b
  deriving DecidableEq, Repr

/-- The two pulse engines, PULSE0 and PULSE1 (6.6). -/
inductive PulseId where
  | p0 | p1
  deriving DecidableEq, Repr

/-- The blocks whose appends may wait for the journal to take them (R12). -/
inductive Source where
  | frontEnd | detectorBank | captureStore | energyBlock | leaseArbiter | configController
  deriving DecidableEq, Repr

/-- What a request frame asks for, with the payload fields of the request code table of 10.5. One-byte fields are kept as
the byte on the wire, so that a value out of range can be asked for and refused. -/
inductive Request where
  | openSession (start retention : Byte)
  | closeSession
  | portStatus (clear : Byte)
  | setAttention (mask watermark : Byte)
  | attentionStatus
  | setSubscription (mask : Byte)
  | setRetention (retention : Byte)
  | readEntries (countAndAck : Byte)
  | ackEntries (seq : W32)
  | rewind
  | journalStatus
  | appendNote (data : List Byte)
  | captureNow
  | captureList
  | readFrames (id : W16) (part : Byte) (offset : W16) (count : Byte)
  | releaseCapture (id : W16)
  | storeStatus (id : W16)
  | readEnergy
  | markBaseline (mask : Byte)
  | snapshot
  | readSnapshot
  | pulseStatus
  | leaseTake (seconds wait : Byte)
  | leaseRelease
  | leaseStatus
  | stageWrite (sec record field : Byte) (value : W16)
  | stageRead (sec record field : Byte)
  | configRead (sec record field : Byte)
  | commit
  | discard
  | clearTally (mask : Byte)
  | restart (generation : W16)
  | defineReadSet (codes : List Byte)
  | readSet
  | detectorStatus
  deriving DecidableEq, Repr

/-- The commands, one constructor for each row of spec/opcode_table.json.

Rows that are an event from outside carry what the outside supplies (a sample, a byte, a pin level, the edges of a lead).
Rows that are a block taking what another block handed to it carry no operand: what they take waits in State.
Rows that are a request carry the port, the frame's tag and the payload fields; the frame's check byte is the good one
(a frame with a bad check is `badFrame`). -/
inductive Instr where
  -- resets, 1.7
  | powerOnReset
  | pinReset
  -- the Front End, chapter 3: a raw sample of each channel
  | frameTaken (u ia ib : W16)
  -- blocks taking what was handed to them
  | detectorClose
  | energyClose
  | pulseHighEnd (engine : PulseId)
  | pulseGapEnd (engine : PulseId)
  | energyConfig
  | energyFault
  | captureFrame
  | captureTrigger
  | xtrigInEdge (high : Bool)
  | xtrigOutPulseEnd
  | captureConfig
  | captureTokenFree
  | journalAppend (source : Source)
  -- timers
  | leaseExpiry
  | leaseWarnStart
  | integrityScrub
  | idleExpiry (port : Port)
  | restartTimeout
  -- ports A and B, 9.2
  | selectFall (port : SyncId)
  | selectRise (port : SyncId)
  | firstByte (port : SyncId) (byte : Byte)
  | requestByte (port : SyncId) (byte : Byte)
  | fetchByte (port : SyncId)
  | frameGapTimeout (port : Port)
  -- port C, 9.3: the four intervals between five falling edges, and the time to the next falling edge if one comes, in ns
  | leadPattern (i1 i2 i3 i4 : Nat) (nextEdge : Option Nat)
  | portCByte (byte : Byte) (stopHigh : Bool)
  | responseSent
  | lineBreak
  -- requests, chapter 10
  | badFrame (port : Port) (tag code : Byte) (payload : List Byte) (check : Byte)
  | openSession (port : Port) (tag start retention : Byte)
  | closeSession (port : Port) (tag : Byte)
  | portStatus (port : Port) (tag clear : Byte)
  | setAttention (port : Port) (tag mask watermark : Byte)
  | attentionStatus (port : Port) (tag : Byte)
  | setSubscription (port : Port) (tag mask : Byte)
  | setRetention (port : Port) (tag retention : Byte)
  | readEntries (port : Port) (tag countAndAck : Byte)
  | ackEntries (port : Port) (tag : Byte) (seq : W32)
  | rewind (port : Port) (tag : Byte)
  | journalStatus (port : Port) (tag : Byte)
  | appendNote (port : Port) (tag : Byte) (data : List Byte)
  | captureNow (port : Port) (tag : Byte)
  | captureList (port : Port) (tag : Byte)
  | readFrames (port : Port) (tag : Byte) (id : W16) (part : Byte) (offset : W16) (count : Byte)
  | releaseCapture (port : Port) (tag : Byte) (id : W16)
  | storeStatus (port : Port) (tag : Byte) (id : W16)
  | readEnergy (port : Port) (tag : Byte)
  | markBaseline (port : Port) (tag mask : Byte)
  | snapshot (port : Port) (tag : Byte)
  | readSnapshot (port : Port) (tag : Byte)
  | pulseStatus (port : Port) (tag : Byte)
  | leaseTake (port : Port) (tag seconds wait : Byte)
  | leaseRelease (port : Port) (tag : Byte)
  | leaseStatus (port : Port) (tag : Byte)
  | stageWrite (port : Port) (tag sec record field : Byte) (value : W16)
  | stageRead (port : Port) (tag sec record field : Byte)
  | configRead (port : Port) (tag sec record field : Byte)
  | commit (port : Port) (tag : Byte)
  | discard (port : Port) (tag : Byte)
  | clearTally (port : Port) (tag mask : Byte)
  | restart (port : Port) (tag : Byte) (generation : W16)
  | defineReadSet (port : Port) (tag : Byte) (codes : List Byte)
  | readSet (port : Port) (tag : Byte)
  | detectorStatus (port : Port) (tag : Byte)
  -- the tick clock and the end of a pin reset
  | tickCount
  | resetRelease
  deriving DecidableEq, Repr

end Sys2Proof
end

