-- ==== Sys2Proof/Decode.lean ====
section
/-! DEFINITION. Decoding by the bits of spec/opcode_table.json. The table gives bits to no row: its commands are events, and a
request is spelt by a frame of bytes, which `ReqCode.read` of Machine/Operands.lean reads (10.5). So no word spells a command
(log 21). -/

namespace Sys2Proof

/-- The command that a word spells by the table's bits: none, since no row has any. -/
def decodeTableWord (_nbits _w : Nat) : Option Instr := none

end Sys2Proof
end

