-- ==== Sys2Proof/Config.lean ====
section
/-! DEFINITION. The free values: constants without a body, one for each value or order that the manual leaves open.
Nothing can be proved of what they are, so a claim about the model holds whatever they are. -/

namespace Sys2Proof

/-- R51 rounds an RMS "to the nearest integer" and does not say which way an exact half goes. DESIGN CHOICE (log 12):
for a sum of squares and a frame count whose root lies exactly half way, this says whether the upper integer is taken. -/
opaque Config.rmsHalfGoesUp : (sumOfSquares frames : Nat) → Bool

/-- PORT_STATUS reports the locked rate in whole bit/s (R171, R182) and no rule says how a measured bit time that gives no
whole rate is rounded. DESIGN CHOICE (log 13): whether the rate above or the rate below is reported, by the lead's span. -/
opaque Config.rateRoundsUp : (spanNs : Nat) → Bool

/-- R173 lets the entries that different blocks append in one teardown stand in whichever order the journal took them.
DESIGN CHOICE (log 10): where the Capture Store's entry stands among the Lease Arbiter's in teardown number n: after them, before
them, or between the entry of the ending and that of the grant. -/
opaque Config.teardownOrder : (n : Nat) → Fin 3

/-- R120 deals with all owed pulses of a close "before the engine takes anything else", and R121 starts a pulse "whenever"
an idle engine has one pending; with 16 or more pulses owed at once to an idle engine the two readings differ by one lost
pulse. DESIGN CHOICE (log 11): whether the first pulse starts before the rest are counted, in the n-th such case. -/
opaque Config.pulseStartsFirst : (n : Nat) → Bool

/-- R91 has triggers that arrive together taken one after the other and orders only those of the Detector Bank among themselves.
DESIGN CHOICE (log 35): which of the triggers that may be taken next is taken, in the n-th such case, as a number modulo how many
there are. -/
opaque Config.triggerTaken : (n : Nat) → Nat

end Sys2Proof
end

