-- ==== Sys2Proof/Machine/Vec.lean ====
section
/-! DEFINITION. A fixed number of like things, by name: one of each per port, per synchronous port, per detector, per
accumulator, per pulse engine, per entry class. Plain structures, so that two of them can be compared and written out. -/

namespace Sys2Proof.Machine

/-- The six detectors, in detector order (4.1). -/
inductive DetId where
  | uDip | uSwell | uIntr | iaOver | ibOver | iResid
  deriving DecidableEq, Repr

/-- The four accumulators (6.1). -/
inductive AccId where
  | e0 | e1 | e2 | e3
  deriving DecidableEq, Repr

/-- The eight entry classes (R3). -/
inductive EntryClass where
  | disturbance | capture | energy | config | session | line | note | system
  deriving DecidableEq, Repr

/-- The three ports in port order. -/
def allPorts : List Port := [.a, .b, .c]
/-- The six detectors in detector order. -/
def allDetectors : List DetId := [.uDip, .uSwell, .uIntr, .iaOver, .ibOver, .iResid]
/-- The four accumulators in order. -/
def allAccumulators : List AccId := [.e0, .e1, .e2, .e3]
/-- The two pulse engines in order. -/
def allPulseEngines : List PulseId := [.p0, .p1]
/-- The eight classes in class order. -/
def allClasses : List EntryClass := [.disturbance, .capture, .energy, .config, .session, .line, .note, .system]

/-- One thing per port. -/
structure PerPort (α : Type) where
  a : α
  b : α
  c : α
  deriving DecidableEq, Repr

/-- One thing per synchronous port. -/
structure PerSync (α : Type) where
  a : α
  b : α
  deriving DecidableEq, Repr

/-- One thing per detector. -/
structure PerDet (α : Type) where
  uDip : α
  uSwell : α
  uIntr : α
  iaOver : α
  ibOver : α
  iResid : α
  deriving DecidableEq, Repr

/-- One thing per accumulator. -/
structure PerAcc (α : Type) where
  e0 : α
  e1 : α
  e2 : α
  e3 : α
  deriving DecidableEq, Repr

/-- One thing per pulse engine. -/
structure PerPulse (α : Type) where
  p0 : α
  p1 : α
  deriving DecidableEq, Repr

/-- One thing per entry class. -/
structure PerClass (α : Type) where
  disturbance : α
  capture : α
  energy : α
  config : α
  session : α
  line : α
  note : α
  system : α
  deriving DecidableEq, Repr

section
variable {α β : Type}

def PerPort.get (v : PerPort α) : Port → α
  | .a => v.a | .b => v.b | .c => v.c
def PerPort.set (v : PerPort α) : Port → α → PerPort α
  | .a, x => { v with a := x } | .b, x => { v with b := x } | .c, x => { v with c := x }
/-- Each port's thing, with its port, through f. -/
def PerPort.mapWith (f : Port → α → β) (v : PerPort α) : PerPort β := ⟨f .a v.a, f .b v.b, f .c v.c⟩
def PerPort.all (x : α) : PerPort α := ⟨x, x, x⟩

def PerSync.get (v : PerSync α) : SyncId → α
  | .a => v.a | .b => v.b
def PerSync.set (v : PerSync α) : SyncId → α → PerSync α
  | .a, x => { v with a := x } | .b, x => { v with b := x }
def PerSync.all (x : α) : PerSync α := ⟨x, x⟩

def PerDet.get (v : PerDet α) : DetId → α
  | .uDip => v.uDip | .uSwell => v.uSwell | .uIntr => v.uIntr
  | .iaOver => v.iaOver | .ibOver => v.ibOver | .iResid => v.iResid
def PerDet.set (v : PerDet α) : DetId → α → PerDet α
  | .uDip, x => { v with uDip := x } | .uSwell, x => { v with uSwell := x } | .uIntr, x => { v with uIntr := x }
  | .iaOver, x => { v with iaOver := x } | .ibOver, x => { v with ibOver := x } | .iResid, x => { v with iResid := x }
def PerDet.mapWith (f : DetId → α → β) (v : PerDet α) : PerDet β :=
  ⟨f .uDip v.uDip, f .uSwell v.uSwell, f .uIntr v.uIntr, f .iaOver v.iaOver, f .ibOver v.ibOver, f .iResid v.iResid⟩

def PerAcc.get (v : PerAcc α) : AccId → α
  | .e0 => v.e0 | .e1 => v.e1 | .e2 => v.e2 | .e3 => v.e3
def PerAcc.set (v : PerAcc α) : AccId → α → PerAcc α
  | .e0, x => { v with e0 := x } | .e1, x => { v with e1 := x } | .e2, x => { v with e2 := x } | .e3, x => { v with e3 := x }
def PerAcc.mapWith (f : AccId → α → β) (v : PerAcc α) : PerAcc β := ⟨f .e0 v.e0, f .e1 v.e1, f .e2 v.e2, f .e3 v.e3⟩
def PerAcc.all (x : α) : PerAcc α := ⟨x, x, x, x⟩

def PerPulse.get (v : PerPulse α) : PulseId → α
  | .p0 => v.p0 | .p1 => v.p1
def PerPulse.set (v : PerPulse α) : PulseId → α → PerPulse α
  | .p0, x => { v with p0 := x } | .p1, x => { v with p1 := x }
def PerPulse.mapWith (f : PulseId → α → β) (v : PerPulse α) : PerPulse β := ⟨f .p0 v.p0, f .p1 v.p1⟩

def PerClass.get (v : PerClass α) : EntryClass → α
  | .disturbance => v.disturbance | .capture => v.capture | .energy => v.energy | .config => v.config
  | .session => v.session | .line => v.line | .note => v.note | .system => v.system
def PerClass.set (v : PerClass α) : EntryClass → α → PerClass α
  | .disturbance, x => { v with disturbance := x } | .capture, x => { v with capture := x }
  | .energy, x => { v with energy := x } | .config, x => { v with config := x }
  | .session, x => { v with session := x } | .line, x => { v with line := x }
  | .note, x => { v with note := x } | .system, x => { v with system := x }
def PerClass.all (x : α) : PerClass α := ⟨x, x, x, x, x, x, x, x⟩
end

/-- The class number, which is the class's bit in a mask (R3). -/
def EntryClass.number : EntryClass → Nat
  | .disturbance => 0 | .capture => 1 | .energy => 2 | .config => 3
  | .session => 4 | .line => 5 | .note => 6 | .system => 7

/-- Host codes: 0 A, 1 B, 2 C (R182, codes for named values). -/
def portCode : Port → Byte
  | .a => 0 | .b => 1 | .c => 2
/-- Detector numbers 0 to 5 (4.1). -/
def DetId.number : DetId → Nat
  | .uDip => 0 | .uSwell => 1 | .uIntr => 2 | .iaOver => 3 | .ibOver => 4 | .iResid => 5
/-- Accumulator numbers 0 to 3. -/
def AccId.number : AccId → Nat
  | .e0 => 0 | .e1 => 1 | .e2 => 2 | .e3 => 3

/-- A set of hosts (R3: a host mask). -/
abbrev HostSet := PerPort Bool

/-- No host. -/
def noHosts : HostSet := PerPort.all false
/-- A host mask on the wire: bit 0 A, bit 1 B, bit 2 C (R182). -/
def HostSet.toByte (h : HostSet) : Byte :=
  (if h.a then 1 else 0) ||| (if h.b then 2 else 0) ||| (if h.c then 4 else 0)

/-- The port that a synchronous port is. -/
def syncPort : SyncId → Port
  | .a => .a | .b => .b

end Sys2Proof.Machine
end

