-- ==== Sys2Proof/Machine/Table.lean ====
section
/-! DEFINITION. The configuration table (chapter 7): its five sections, the catalogue of 84 items with their addresses,
ranges and defaults, and the integrity code. Every value is a 16-bit word, as a host reads and writes it. -/

namespace Sys2Proof.Machine

/-- Section S0 FRONT (3.1). -/
structure FrontCfg where
  gainU : W16
  gainIA : W16
  gainIB : W16
  nominal : W16
  deriving DecidableEq, Repr

/-- One record of section S1 DETECT (4.2). -/
structure DetCfg where
  enable : W16
  onset : W16
  release : W16
  onsetCount : W16
  releaseCount : W16
  trigOnset : W16
  trigRelease : W16
  deriving DecidableEq, Repr

/-- Section S2 CAPTURE (5.1). -/
structure CapCfg where
  armed : W16
  pre : W16
  chainLimit : W16
  xtrigIn : W16
  xtrigOut : W16
  deriving DecidableEq, Repr

/-- One accumulator record of section S3 ENERGY (6.1). -/
structure AccCfg where
  source : W16
  direction : W16
  creepLevel : W16
  creepCount : W16
  lock : W16
  deriving DecidableEq, Repr

/-- One pulse engine record of section S3 ENERGY (6.1). -/
structure PulseCfg where
  binding : W16
  k : W16
  width : W16
  deriving DecidableEq, Repr

/-- Section S3 ENERGY. -/
structure EnergyCfg where
  acc : PerAcc AccCfg
  pulse : PerPulse PulseCfg
  deriving DecidableEq, Repr

/-- One port record of section S4 HOSTS (7.1). -/
structure HostCfg where
  idleLimit : W16
  holdPermit : W16
  deriving DecidableEq, Repr

/-- The whole table (R129). The port C rate mode is the third field of S4's record for port C. -/
structure Table where
  front : FrontCfg
  det : PerDet DetCfg
  cap : CapCfg
  energy : EnergyCfg
  host : PerPort HostCfg
  rateMode : W16
  deriving DecidableEq, Repr

inductive FrontField where
  | gainU | gainIA | gainIB | nominal
  deriving DecidableEq, Repr
inductive DetField where
  | enable | onset | release | onsetCount | releaseCount | trigOnset | trigRelease
  deriving DecidableEq, Repr
inductive CapField where
  | armed | pre | chainLimit | xtrigIn | xtrigOut
  deriving DecidableEq, Repr
inductive AccField where
  | source | direction | creepLevel | creepCount | lock
  deriving DecidableEq, Repr
inductive PulseField where
  | binding | k | width
  deriving DecidableEq, Repr
inductive HostField where
  | idleLimit | holdPermit
  deriving DecidableEq, Repr

/-- An item of the table: a section, a record and a field that the catalogue lists. -/
inductive Item where
  | front (f : FrontField)
  | det (d : DetId) (f : DetField)
  | cap (f : CapField)
  | acc (a : AccId) (f : AccField)
  | pulse (e : PulseId) (f : PulseField)
  | host (p : Port) (f : HostField)
  | rateMode
  deriving DecidableEq, Repr

def FrontCfg.get (r : FrontCfg) : FrontField → W16
  | .gainU => r.gainU | .gainIA => r.gainIA | .gainIB => r.gainIB | .nominal => r.nominal
def FrontCfg.set (r : FrontCfg) : FrontField → W16 → FrontCfg
  | .gainU, v => { r with gainU := v } | .gainIA, v => { r with gainIA := v }
  | .gainIB, v => { r with gainIB := v } | .nominal, v => { r with nominal := v }

def DetCfg.get (r : DetCfg) : DetField → W16
  | .enable => r.enable | .onset => r.onset | .release => r.release | .onsetCount => r.onsetCount
  | .releaseCount => r.releaseCount | .trigOnset => r.trigOnset | .trigRelease => r.trigRelease
def DetCfg.set (r : DetCfg) : DetField → W16 → DetCfg
  | .enable, v => { r with enable := v } | .onset, v => { r with onset := v } | .release, v => { r with release := v }
  | .onsetCount, v => { r with onsetCount := v } | .releaseCount, v => { r with releaseCount := v }
  | .trigOnset, v => { r with trigOnset := v } | .trigRelease, v => { r with trigRelease := v }

def CapCfg.get (r : CapCfg) : CapField → W16
  | .armed => r.armed | .pre => r.pre | .chainLimit => r.chainLimit | .xtrigIn => r.xtrigIn | .xtrigOut => r.xtrigOut
def CapCfg.set (r : CapCfg) : CapField → W16 → CapCfg
  | .armed, v => { r with armed := v } | .pre, v => { r with pre := v } | .chainLimit, v => { r with chainLimit := v }
  | .xtrigIn, v => { r with xtrigIn := v } | .xtrigOut, v => { r with xtrigOut := v }

def AccCfg.get (r : AccCfg) : AccField → W16
  | .source => r.source | .direction => r.direction | .creepLevel => r.creepLevel
  | .creepCount => r.creepCount | .lock => r.lock
def AccCfg.set (r : AccCfg) : AccField → W16 → AccCfg
  | .source, v => { r with source := v } | .direction, v => { r with direction := v }
  | .creepLevel, v => { r with creepLevel := v } | .creepCount, v => { r with creepCount := v }
  | .lock, v => { r with lock := v }

def PulseCfg.get (r : PulseCfg) : PulseField → W16
  | .binding => r.binding | .k => r.k | .width => r.width
def PulseCfg.set (r : PulseCfg) : PulseField → W16 → PulseCfg
  | .binding, v => { r with binding := v } | .k, v => { r with k := v } | .width, v => { r with width := v }

def HostCfg.get (r : HostCfg) : HostField → W16
  | .idleLimit => r.idleLimit | .holdPermit => r.holdPermit
def HostCfg.set (r : HostCfg) : HostField → W16 → HostCfg
  | .idleLimit, v => { r with idleLimit := v } | .holdPermit, v => { r with holdPermit := v }

/-- The value of an item. -/
def Table.get (t : Table) : Item → W16
  | .front f => t.front.get f
  | .det d f => (t.det.get d).get f
  | .cap f => t.cap.get f
  | .acc a f => (t.energy.acc.get a).get f
  | .pulse e f => (t.energy.pulse.get e).get f
  | .host p f => (t.host.get p).get f
  | .rateMode => t.rateMode

/-- The table with one item's value replaced. -/
def Table.set (t : Table) : Item → W16 → Table
  | .front f, v => { t with front := t.front.set f v }
  | .det d f, v => { t with det := t.det.set d ((t.det.get d).set f v) }
  | .cap f, v => { t with cap := t.cap.set f v }
  | .acc a f, v => { t with energy := { t.energy with acc := t.energy.acc.set a ((t.energy.acc.get a).set f v) } }
  | .pulse e f, v => { t with energy := { t.energy with pulse := t.energy.pulse.set e ((t.energy.pulse.get e).set f v) } }
  | .host p f, v => { t with host := t.host.set p ((t.host.get p).set f v) }
  | .rateMode, v => { t with rateMode := v }

/-! ### The item order and the addresses (R128) -/

def frontFields : List FrontField := [.gainU, .gainIA, .gainIB, .nominal]
def detFields : List DetField := [.enable, .onset, .release, .onsetCount, .releaseCount, .trigOnset, .trigRelease]
def capFields : List CapField := [.armed, .pre, .chainLimit, .xtrigIn, .xtrigOut]
def accFields : List AccField := [.source, .direction, .creepLevel, .creepCount, .lock]
def pulseFields : List PulseField := [.binding, .k, .width]
def hostFields : List HostField := [.idleLimit, .holdPermit]

/-- The 84 items in item order: by section, then by record, then by field (R128). -/
def Item.all : List Item :=
  frontFields.map .front
    ++ allDetectors.flatMap (fun d => detFields.map (.det d))
    ++ capFields.map .cap
    ++ allAccumulators.flatMap (fun a => accFields.map (.acc a))
    ++ allPulseEngines.flatMap (fun e => pulseFields.map (.pulse e))
    ++ allPorts.flatMap (fun p => hostFields.map (.host p))
    ++ [.rateMode]

def FrontField.number : FrontField → Byte
  | .gainU => 0 | .gainIA => 1 | .gainIB => 2 | .nominal => 3
def DetField.number : DetField → Byte
  | .enable => 0 | .onset => 1 | .release => 2 | .onsetCount => 3 | .releaseCount => 4 | .trigOnset => 5 | .trigRelease => 6
def CapField.number : CapField → Byte
  | .armed => 0 | .pre => 1 | .chainLimit => 2 | .xtrigIn => 3 | .xtrigOut => 4
def AccField.number : AccField → Byte
  | .source => 0 | .direction => 1 | .creepLevel => 2 | .creepCount => 3 | .lock => 4
def PulseField.number : PulseField → Byte
  | .binding => 0 | .k => 1 | .width => 2
def HostField.number : HostField → Byte
  | .idleLimit => 0 | .holdPermit => 1
def DetId.record : DetId → Byte
  | .uDip => 0 | .uSwell => 1 | .uIntr => 2 | .iaOver => 3 | .ibOver => 4 | .iResid => 5
def AccId.record : AccId → Byte
  | .e0 => 0 | .e1 => 1 | .e2 => 2 | .e3 => 3
/-- Pulse engines are records 4 and 5 of S3. -/
def pulseRecord : PulseId → Byte
  | .p0 => 4 | .p1 => 5

/-- An item's section number (S0 to S4). -/
def Item.sectionNumber : Item → Byte
  | .front _ => 0 | .det _ _ => 1 | .cap _ => 2 | .acc _ _ => 3 | .pulse _ _ => 3 | .host _ _ => 4 | .rateMode => 4
/-- An item's record number. -/
def Item.record : Item → Byte
  | .front _ => 0 | .det d _ => d.record | .cap _ => 0 | .acc a _ => a.record | .pulse e _ => pulseRecord e
  | .host p _ => portCode p | .rateMode => 2
/-- An item's field number. -/
def Item.field : Item → Byte
  | .front f => f.number | .det _ f => f.number | .cap f => f.number | .acc _ f => f.number | .pulse _ f => f.number
  | .host _ f => f.number | .rateMode => 2

/-- The item that an address names, if the catalogue lists it (R129). -/
def Item.ofAddress (sec record field : Byte) : Option Item :=
  Item.all.find? fun i => i.sectionNumber == sec && i.record == record && i.field == field

/-- The field number that names every field of a record in STAGE_READ and CONFIG_READ (R142). -/
def everyField : Byte := 0xFF

/-- The items that a read address names: one item, or every field of the record in field order (R142). Empty when the
address names no item. -/
def Item.named (sec record field : Byte) : List Item :=
  if field = everyField then Item.all.filter fun i => i.sectionNumber == sec && i.record == record
  else (Item.ofAddress sec record field).toList

/-- Whether a value is in the catalogue's range for an item (7.1). -/
def Item.inRange (i : Item) (v : W16) : Bool :=
  let n := v.toNat
  match i with
  | .front .nominal => n == 50 || n == 60
  | .front _ => true
  | .det _ .enable => n ≤ 1
  | .det _ .onset => true
  | .det _ .release => true
  | .det _ .onsetCount => 1 ≤ n && n ≤ 16
  | .det _ .releaseCount => 1 ≤ n && n ≤ 64
  | .det _ .trigOnset => n ≤ 1
  | .det _ .trigRelease => n ≤ 1
  | .cap .armed => n ≤ 1
  | .cap .pre => 64 ≤ n && n ≤ 960 && n % 64 == 0
  | .cap .chainLimit => 1 ≤ n && n ≤ 4
  | .cap .xtrigIn => n ≤ 2
  | .cap .xtrigOut => n ≤ 1
  | .acc _ .source => n ≤ 7
  | .acc _ .direction => n ≤ 3
  | .acc _ .creepLevel => true
  | .acc _ .creepCount => 2 ≤ n && n ≤ 32
  | .acc _ .lock => n ≤ 1
  | .pulse _ .binding => n ≤ 4
  | .pulse _ .k => 1 ≤ n
  | .pulse _ .width => n == 10 || n == 20 || n == 40 || n == 80
  | .host _ .idleLimit => n ≤ 255
  | .host _ .holdPermit => n ≤ 1
  | .rateMode => n ≤ 1

/-! ### Defaults (3.1, 4.2, 5.1, 6.1, 7.1) -/

def frontDefaults : FrontCfg := { gainU := 32768, gainIA := 32768, gainIB := 32768, nominal := 50 }

def detDefaults : PerDet DetCfg where
  uDip := { enable := 0, onset := 2070, release := 2116, onsetCount := 1, releaseCount := 2, trigOnset := 1, trigRelease := 0 }
  uSwell := { enable := 0, onset := 2530, release := 2484, onsetCount := 1, releaseCount := 2, trigOnset := 1, trigRelease := 0 }
  uIntr := { enable := 0, onset := 115, release := 230, onsetCount := 1, releaseCount := 2, trigOnset := 1, trigRelease := 0 }
  iaOver := { enable := 0, onset := 6000, release := 5700, onsetCount := 2, releaseCount := 4, trigOnset := 1, trigRelease := 0 }
  ibOver := { enable := 0, onset := 6000, release := 5700, onsetCount := 2, releaseCount := 4, trigOnset := 1, trigRelease := 0 }
  iResid := { enable := 0, onset := 3, release := 2, onsetCount := 2, releaseCount := 4, trigOnset := 1, trigRelease := 0 }

def capDefaults : CapCfg := { armed := 1, pre := 256, chainLimit := 2, xtrigIn := 0, xtrigOut := 0 }

def energyDefaults : EnergyCfg where
  acc :=
    { e0 := { source := 0, direction := 0, creepLevel := 20, creepCount := 8, lock := 0 }
      e1 := { source := 0, direction := 1, creepLevel := 20, creepCount := 8, lock := 0 }
      e2 := { source := 2, direction := 2, creepLevel := 20, creepCount := 8, lock := 0 }
      e3 := { source := 7, direction := 0, creepLevel := 0, creepCount := 8, lock := 0 } }
  pulse :=
    { p0 := { binding := 0, k := 1000, width := 40 }
      p1 := { binding := 4, k := 1000, width := 40 } }

def hostDefaults : PerPort HostCfg := PerPort.all { idleLimit := 30, holdPermit := 1 }

/-- The table a reset sets, around the S3 it keeps or defaults (R150). -/
def Table.withEnergy (s3 : EnergyCfg) : Table :=
  { front := frontDefaults, det := detDefaults, cap := capDefaults, energy := s3, host := hostDefaults, rateMode := 0 }

/-- The table with every section at its defaults. -/
def Table.defaults : Table := Table.withEnergy energyDefaults

/-! ### The integrity code (R131) -/

/-- The sum, modulo 65536, of each item's value times its place, the first of the list having place k. -/
def codeFrom (t : Table) (k : Nat) : List Item → W16
  | [] => 0
  | i :: rest => t.get i * BitVec.ofNat 16 k + codeFrom t (k + 1) rest

/-- The integrity code of a table: places run from 1 to 84 in the item order. -/
def Table.code (t : Table) : W16 := codeFrom t 1 Item.all

/-! ### Validation of a stage (R125, R144) -/

/-- Why a commit failed, with the code of R182. -/
inductive FailReason where
  | range | levelOrder | holdInUse | lock
  deriving DecidableEq, Repr

/-- The accumulator that a binding code names, if any (4 is NONE). -/
def boundAcc (binding : W16) : Option AccId :=
  if binding = 0 then some .e0 else if binding = 1 then some .e1
  else if binding = 2 then some .e2 else if binding = 3 then some .e3 else none

/-- Whether an accumulator is locked in a table. -/
def Table.locked (t : Table) (a : AccId) : Bool := (t.energy.acc.get a).lock == 1

/-- Whether staging an item's value breaks a lock rule, judged on the committed table before the commit (R125). -/
def lockBroken (committed stage : Table) (i : Item) : Bool :=
  match i with
  | .acc a .lock => committed.locked a && stage.get (.acc a .lock) == 0
  | .acc a f => committed.locked a && stage.get (.acc a f) != committed.get (.acc a f)
  | .pulse e f =>
    match boundAcc (committed.energy.pulse.get e).binding with
    | some a => committed.locked a && stage.get (.pulse e f) != committed.get (.pulse e f)
    | none => false
  | _ => false

/-- U_DIP and U_INTR look for a value below the onset level, the others above it (4.1). -/
def DetId.isBelow : DetId → Bool
  | .uDip => true | .uIntr => true | _ => false

/-- Whether an S1 record's levels are in order: compared only for an enabled detector (R62). -/
def levelsInOrder (d : DetId) (r : DetCfg) : Bool :=
  r.enable != 1 || (if d.isBelow then decide (r.onset.toNat < r.release.toNat) else decide (r.release.toNat < r.onset.toNat))

/-- The check of pass 2 that an item fails, its range first (R144). -/
def itemFault (holdToken : Option Port) (stage : Table) (i : Item) : Option FailReason :=
  if !i.inRange (stage.get i) then some .range
  else match i with
    | .det d .release => if levelsInOrder d (stage.det.get d) then none else some .levelOrder
    | .host p .holdPermit =>
      if stage.get (.host p .holdPermit) == 0 && holdToken == some p then some .holdInUse else none
    | _ => none

/-- The first item that fails a check of pass 2, with the check. -/
def firstFault (holdToken : Option Port) (stage : Table) : List Item → Option (Item × FailReason)
  | [] => none
  | i :: rest =>
    match itemFault holdToken stage i with
    | some r => some (i, r)
    | none => firstFault holdToken stage rest

/-- The whole validation walk: pass 1 over the lock rules, then pass 2 (R144). None when the stage passes. -/
def validateStage (holdToken : Option Port) (committed stage : Table) : Option (Item × FailReason) :=
  match Item.all.find? (lockBroken committed stage) with
  | some i => some (i, .lock)
  | none => firstFault holdToken stage Item.all

/-- The changed-section mask of a commit: bit n for section Sn (R146). -/
def changedSections (old new : Table) : Byte :=
  (if old.front = new.front then 0 else 1) ||| (if old.det = new.det then 0 else 2)
    ||| (if old.cap = new.cap then 0 else 4) ||| (if old.energy = new.energy then 0 else 8)
    ||| (if old.host = new.host ∧ old.rateMode = new.rateMode then 0 else 16)

/-- Whether a commit redefines an accumulator: its source or direction differs (R123). -/
def redefined (old new : EnergyCfg) (a : AccId) : Bool :=
  (old.acc.get a).source != (new.acc.get a).source || (old.acc.get a).direction != (new.acc.get a).direction

/-- The accumulators-reset mask of a commit: bit n for En (R123, R146). -/
def resetMask (old new : EnergyCfg) : Byte :=
  (if redefined old new .e0 then 1 else 0) ||| (if redefined old new .e1 then 2 else 0)
    ||| (if redefined old new .e2 then 4 else 0) ||| (if redefined old new .e3 then 8 else 0)

end Sys2Proof.Machine
end

