-- ==== Sys2Proof/Machine/State.lean ====
section
/-! DEFINITION. The state of the HQ-3, block by block, as plain data, and the state right after a power-on reset. -/

namespace Sys2Proof.Machine

/-! ### Faults and refusals -/

/-- The rules give every command an effect, so no command faults. The type has no constructor: a fault cannot be raised
(log 1). -/
inductive Fault where
  deriving DecidableEq, Repr

/-- Why a command has no meaning. -/
inductive Refusal where
  /-- Raised by `exec` alone, for a row of the table whose meaning is not written. No arm raises it in this model. Safe: the
  machine stops where the part would go on. -/
  | notModelled (mnemonic : String)
  deriving DecidableEq, Repr

/-! ### Journal entries (chapter 1) -/

/-- Why an episode ended (R4). -/
inductive EndReason where
  | normal | cutByConfig
  deriving DecidableEq, Repr

/-- Why a trigger was missed (R5, R90). -/
inductive MissReason where
  | noSlot | disarmed
  deriving DecidableEq, Repr

/-- An accumulator's creep gate (6.1). -/
inductive Gate where
  | running | creep | fault
  deriving DecidableEq, Repr

/-- What happened to the lease (R7). -/
inductive LeaseEventKind where
  | granted | released | expired | forfeited
  deriving DecidableEq, Repr

/-- What happened to a session (R8). -/
inductive SessionEventKind where
  | opened | closed | expired | portReset
  deriving DecidableEq, Repr

/-- How the line state changed (R8, R57). -/
inductive LineEventKind where
  | lost | tracking
  deriving DecidableEq, Repr

/-- What caused a reset (R9, R22). -/
inductive RestartCause where
  | powerOn | pin | request
  deriving DecidableEq, Repr

/-- What raised a trigger (5.3). -/
inductive TrigSource where
  | onset (d : DetId)
  | release (d : DetId)
  | host (p : Port)
  | xtrigIn
  deriving DecidableEq, Repr

/-- The flags of a capture record (5.1). -/
structure CapFlags where
  shortPre : Bool
  chained : Bool
  chainCut : Bool
  deriving DecidableEq, Repr

/-- A slot number, 0 to 7 (R83). -/
abbrev SlotId := Fin 8

/-- An entry's kind with its payload fields (R4 to R9). -/
inductive EntryBody where
  | episodeOpen (det : DetId) (episode : W16) (startHc : W32) (extreme : Nat)
  | episodeClose (det : DetId) (episode : W16) (startHc : W32) (duration extreme : Nat) (reason : EndReason)
  | captureSealed (id : W16) (slots : List SlotId) (triggers : Nat) (first : TrigSource) (pre : Nat) (flags : CapFlags)
      (extra : Nat)
  | captureMissed (source : TrigSource) (reason : MissReason)
  | captureReclaimed (id : W16) (lost : HostSet)
  | snapshot (id : W16) (requesters : HostSet) (values : PerAcc W48)
  | creepChange (acc : AccId) (gate : Gate)
  | configCommit (generation : W16) (host : Port) (sections accumulators : Byte)
  | leaseEvent (event : LeaseEventKind) (host : Port)
  | tallyCleared (mask : Byte) (host : Port)
  | sessionEvent (host : Port) (event : SessionEventKind)
  | lineEvent (event : LineEventKind)
  | note (host : Port) (data : List Byte)
  | restart (cause : RestartCause) (epoch : W16)
  | gap (counts : PerClass Nat) (first last : W32)
  | integrityFault (generation : W16)
  deriving DecidableEq, Repr

/-- A stored entry (1.2). Its class follows from its kind. -/
structure Entry where
  seq : W32
  tick : W32
  hc : W32
  body : EntryBody
  deriving DecidableEq, Repr

/-- An append that a block has handed to the journal and that the journal has not taken yet (R12). -/
structure Append where
  source : Source
  tick : W32
  hc : W32
  body : EntryBody
  deriving DecidableEq, Repr

/-- The loss tally (1.4). -/
structure LossTally where
  counts : PerClass Nat
  first : W32
  last : W32
  deriving DecidableEq, Repr

/-- The Event Journal: the stored entries oldest first, and the appends that wait to be taken, oldest first. -/
structure Journal where
  entries : List Entry
  nextSeq : W32
  epoch : W16
  tally : LossTally
  waiting : List Append
  deriving DecidableEq, Repr

/-! ### The Front End (chapter 3) -/

/-- A calibrated frame (conventions, R45). -/
structure Frame where
  u : W16
  ia : W16
  ib : W16
  deriving DecidableEq, Repr

/-- A frame as it is handed on, with the tick and hc at which the Front End took it. -/
structure StampedFrame where
  frame : Frame
  tick : W32
  hc : W32
  deriving DecidableEq, Repr

inductive LineState where
  | acquiring | tracking | lost
  deriving DecidableEq, Repr

/-- Which limit ends the open half-cycle when no crossing comes (R49). -/
inductive WaitKind where
  | timeout | interval
  deriving DecidableEq, Repr

inductive Polarity where
  | noSign | pos | neg
  deriving DecidableEq, Repr

/-- The open half-cycle: its frame count and the running sums from which its summary is completed (3.4). -/
structure OpenHalfCycle where
  n : Nat
  sumUU : Nat
  sumAA : Nat
  sumBB : Nat
  /-- squares of IA − IB -/
  sumDD : Nat
  peakU : Nat
  peakA : Nat
  peakB : Nat
  /-- U × IA and U × IB -/
  sumUA : Int
  sumUB : Int
  /-- U′ × IA and U′ × IB -/
  sumQA : Int
  sumQB : Int
  deriving DecidableEq, Repr

/-- A half-cycle summary (3.4). -/
structure Summary where
  hc : W32
  polarity : Polarity
  n : Nat
  synthetic : Bool
  uRms : Nat
  iaRms : Nat
  ibRms : Nat
  residRms : Nat
  uPeak : Nat
  iaPeak : Nat
  ibPeak : Nat
  pA : Int
  pB : Int
  qA : Int
  qB : Int
  sA : Int
  sB : Int
  deriving DecidableEq, Repr

/-- The read image (R54). -/
structure ReadImage where
  summary : Summary
  closeTick : W32
  lineState : LineState
  deriving DecidableEq, Repr

/-- A summary as it is handed to the Detector Bank and the Energy Block, with the tick of the close (R53). -/
structure HandedClose where
  summary : Summary
  tick : W32
  deriving DecidableEq, Repr

structure FrontEnd where
  tick : W32
  hc : W32
  lineState : LineState
  genuineRun : Nat
  wait : WaitKind
  opened : OpenHalfCycle
  /-- whether the previous U sample was NEGATIVE; none before the first frame -/
  prevNegative : Option Bool
  /-- the last 32 U samples taken, newest first -/
  uHistory : List W16
  s0 : FrontCfg
  image : ReadImage
  deriving DecidableEq, Repr

/-! ### The Detector Bank (chapter 4) -/

inductive DetState where
  | idle | quiet | onset | active | release
  deriving DecidableEq, Repr

/-- One detector's record (4.1). -/
structure Detector where
  state : DetState
  run : Nat
  cfg : DetCfg
  episode : W16
  startHc : W32
  extreme : Nat
  age : Nat
  span : Nat
  tallyCount : Nat
  tallySum : Nat
  deriving DecidableEq, Repr

structure DetectorBank where
  dets : PerDet Detector
  nextEpisode : W16
  /-- summaries handed by the Front End and not yet taken, oldest first -/
  inbox : List HandedClose
  deriving DecidableEq, Repr

/-! ### Sessions: reader state, attention record, baselines, read set, idle deadline -/

/-- The five latched attention causes (8.1). OVERRUN is the overrun latch of the reader state (R151). -/
structure Latches where
  overrun : Bool
  leaseGranted : Bool
  captureReclaimed : Bool
  pulseLost : Bool
  snapshotDone : Bool
  deriving DecidableEq, Repr

/-- What the part keeps for an open session. Its retention is HOLD exactly when it holds the HOLD token (R26), so the token
of `State` says it. -/
structure Session where
  /-- class mask, bit n for class n -/
  mask : Byte
  cursor : W32
  ackPoint : W32
  overrunCount : Nat
  latches : Latches
  attnMask : Byte
  watermark : Nat
  baselines : PerAcc W48
  readSet : List Byte
  idleDeadline : Option W32
  deriving DecidableEq, Repr

/-! ### The Capture Store (chapter 5) -/

/-- One trigger of a capture's trigger list. -/
structure TrigEntry where
  source : TrigSource
  offset : Nat
  hc : W32
  deriving DecidableEq, Repr

/-- A capture record (5.1) with its frames. Its state is where it stands: RECORDING in `StoreMode.post`, SEALED in the seal
order. Its frames recorded are the length of `frames`, its frames to record what its parts still lack. -/
structure Capture where
  id : W16
  /-- slots of parts 0, 1, 2, 3 -/
  slots : List SlotId
  chainLimit : Nat
  pre : Nat
  firstTick : W32
  firstHc : W32
  /-- the trigger that started the capture, which the trigger list holds first -/
  firstTrigger : TrigEntry
  moreTriggers : List TrigEntry
  extra : Nat
  continueFlag : Bool
  flags : CapFlags
  holders : HostSet
  /-- frame p × 1024 + o is frame o of part p (R101) -/
  frames : List Frame
  deriving DecidableEq, Repr

/-- The store state, with what exists only in it (R83, R84): the LIVE slot and its ring, newest frame last; the RECORDING
capture, whose last slot is the POST slot. -/
inductive StoreMode where
  | disarmed
  | live (slot : SlotId) (ring : List Frame)
  | post (capture : Capture)
  | starved
  deriving DecidableEq, Repr

/-- An event handed to the Capture Store and not yet taken. -/
inductive CapEvent where
  | frame (f : StampedFrame)
  | trigger (source : TrigSource) (tick hc : W32)
  | config (s2 : CapCfg)
  | tokenFree
  deriving DecidableEq, Repr

structure CaptureStore where
  mode : StoreMode
  /-- sealed captures in seal order -/
  sealedCaptures : List Capture
  nextId : W16
  s2 : CapCfg
  /-- the kept level of XTRIG_IN, high or not (R92) -/
  xtrigLevel : Bool
  /-- XTRIG_OUT: high until this tick, or low -/
  xtrigOut : Option W32
  inbox : List CapEvent
  deriving DecidableEq, Repr

/-! ### The Energy Block (chapter 6) -/

structure Accumulator where
  value : W48
  residue : Int
  gate : Gate
  creepRun : Nat
  lastHc : W32
  deriving DecidableEq, Repr

/-- A pulse line's phase, with the phase width and the tick at which the phase ends (R121). The line is high in HIGH. -/
inductive PulsePhase where
  | idle
  | high (width : Nat) (ends : W32)
  | gap (width : Nat) (ends : W32)
  deriving DecidableEq, Repr

structure PulseEngine where
  residue : Nat
  pending : Nat
  lost : Nat
  phase : PulsePhase
  deriving DecidableEq, Repr

structure PendingSnapshot where
  id : W16
  requesters : HostSet
  deriving DecidableEq, Repr

structure SnapshotRecord where
  id : W16
  tick : W32
  hc : W32
  requesters : HostSet
  values : PerAcc W48
  deriving DecidableEq, Repr

/-- What the Configuration Controller hands to the Energy Block (R108, R114). -/
inductive EnergyEvent where
  /-- a committed S3 with the fault clear -/
  | config (s3 : EnergyCfg)
  | fault
  deriving DecidableEq, Repr

structure EnergyBlock where
  acc : PerAcc Accumulator
  engines : PerPulse PulseEngine
  s3 : EnergyCfg
  pendingSnapshot : Option PendingSnapshot
  nextSnapshot : W16
  lastSnapshot : SnapshotRecord
  /-- hc of the latest close taken (R116) -/
  lastCloseHc : W32
  /-- summaries handed by the Front End and not yet taken, oldest first -/
  closes : List HandedClose
  /-- events handed by the Configuration Controller and not yet taken, oldest first -/
  handed : List EnergyEvent
  deriving DecidableEq, Repr

/-! ### Configuration Controller and Lease Arbiter (chapter 7) -/

structure ConfigController where
  committed : Table
  generation : W16
  code : W16
  fault : Bool
  /-- the tick at which the next scrub pass is due (R147) -/
  nextScrub : W32
  /-- RESTART_PENDING, with the tick at which its 50 ms are over (R148, R149) -/
  restartDue : Option W32
  deriving DecidableEq, Repr

/-- A tenure of the setup lease: the lease is HELD exactly while there is one (R132). -/
structure Tenure where
  holder : Port
  expiry : W32
  stage : Table
  deriving DecidableEq, Repr

structure Waiter where
  host : Port
  seconds : Nat
  deriving DecidableEq, Repr

/-! ### Ports (chapter 9) -/

/-- A complete request frame: tag, code, payload and check byte; its length byte is the payload's length (10.4). -/
structure RequestFrame where
  tag : Byte
  code : Byte
  payload : List Byte
  check : Byte
  deriving DecidableEq, Repr

/-- A response frame as it is sent, and whether it is the OK of the RESTART that is pending (R149). -/
structure Response where
  bytes : List Byte
  restartOk : Bool
  deriving DecidableEq, Repr

/-- The error counters that every port has (9.1), each 0 to 255. -/
structure LinkCounters where
  badLead : Nat
  cut : Nat
  timeout : Nat
  length : Nat
  checkFail : Nat
  deriving DecidableEq, Repr

inductive TransactionPhase where
  | none | first | request | fetch | ignore
  deriving DecidableEq, Repr

/-- Port A or B. -/
structure SyncLink where
  counters : LinkCounters
  unfetched : Nat
  phase : TransactionPhase
  /-- the bytes of the frame in receipt, its lead first -/
  receipt : List Byte
  /-- the tick at which the last byte of the frame in receipt completed -/
  lastByte : W32
  pending : Option Response
  fetchPos : Nat
  /-- what the part shifts out on SDO with the latest byte; none while SDO is not driven -/
  sdo : Option Byte
  deriving DecidableEq, Repr

/-- The held frame of port C, with the idle deadline that its completion gave the port: an OPEN_SESSION sets its session's first
deadline to that one (R169, R174). -/
structure HeldFrame where
  frame : RequestFrame
  deadline : Option W32
  deriving DecidableEq, Repr

inductive ReceivePhase where
  | hunting | inFrame
  deriving DecidableEq, Repr

/-- Port C. -/
structure AsyncLink where
  counters : LinkCounters
  overlap : Nat
  /-- the rate lock: the span of the lead it was measured from, in ns (the bit time is an eighth of it); none UNLOCKED -/
  rateSpan : Option Nat
  phase : ReceivePhase
  receipt : List Byte
  lastByte : W32
  /-- SENDING this response; none is IDLE, with TXD high -/
  sending : Option Response
  held : Option HeldFrame
  deriving DecidableEq, Repr

/-- The input pins whose level the part must know. -/
structure Pins where
  /-- RESET is held low -/
  resetLow : Bool
  xtrigInHigh : Bool
  selLow : PerSync Bool
  deriving DecidableEq, Repr

/-- The state of the part. -/
structure State where
  front : FrontEnd
  det : DetectorBank
  journal : Journal
  /-- a port has a session exactly when there is a record for it -/
  sessions : PerPort (Option Session)
  /-- the HOLD token's holder (R26) -/
  token : Option Port
  store : CaptureStore
  energy : EnergyBlock
  config : ConfigController
  lease : Option Tenure
  queue : List Waiter
  links : PerSync SyncLink
  portC : AsyncLink
  /-- the ATTN lines: whether each is driven low (R158) -/
  attnLow : PerPort Bool
  pins : Pins
  /-- the model's own: how many free values have been drawn (log 10, 11, 35) -/
  draws : Nat
  /-- the commands that wait, first in first out -/
  pending : List Instr
  deriving DecidableEq, Repr

/-! ### The state after a reset -/

def LossTally.empty : LossTally := { counts := PerClass.all 0, first := 0, last := 0 }

def OpenHalfCycle.empty : OpenHalfCycle :=
  { n := 0, sumUU := 0, sumAA := 0, sumBB := 0, sumDD := 0, peakU := 0, peakA := 0, peakB := 0, sumUA := 0, sumUB := 0
    sumQA := 0, sumQB := 0 }

def Summary.zero : Summary :=
  { hc := 0, polarity := .noSign, n := 0, synthetic := false, uRms := 0, iaRms := 0, ibRms := 0, residRms := 0, uPeak := 0
    iaPeak := 0, ibPeak := 0, pA := 0, pB := 0, qA := 0, qB := 0, sA := 0, sB := 0 }

/-- 3.1 and R60. -/
def FrontEnd.afterReset : FrontEnd :=
  { tick := 0, hc := 0, lineState := .acquiring, genuineRun := 0, wait := .timeout, opened := .empty, prevNegative := none
    uHistory := List.replicate 32 0, s0 := frontDefaults
    image := { summary := .zero, closeTick := 0, lineState := .acquiring } }

/-- A detector that starts under a record: IDLE if the record is disabled and QUIET if enabled (R82). -/
def Detector.starting (cfg : DetCfg) : Detector :=
  { state := if cfg.enable = 1 then .quiet else .idle, run := 0, cfg := cfg, episode := 0, startHc := 0, extreme := 0, age := 0
    span := 0, tallyCount := 0, tallySum := 0 }

/-- R82. -/
def DetectorBank.afterReset : DetectorBank :=
  { dets := detDefaults.mapWith (fun _ cfg => Detector.starting cfg), nextEpisode := 1, inbox := [] }

/-- R21 and R22: the journal cleared, with the RESTART entry stored as seq 1. -/
def Journal.afterReset (cause : RestartCause) (epoch : W16) : Journal :=
  { entries := [{ seq := 1, tick := 0, hc := 0, body := .restart cause epoch }], nextSeq := 2, epoch := epoch
    tally := .empty, waiting := [] }

/-- R106. The kept level of XTRIG_IN is taken from the pin at the end of the reset (R92). -/
def CaptureStore.afterReset (xtrigInHigh : Bool) : CaptureStore :=
  { mode := .live 0 [], sealedCaptures := [], nextId := 1, s2 := capDefaults, xtrigLevel := xtrigInHigh, xtrigOut := none
    inbox := [] }

/-- R127: what every reset sets, around the values, residues and pulse residues it keeps or zeroes. -/
def EnergyBlock.afterReset (s3 : EnergyCfg) (kept : PerAcc (W48 × Int)) (pulseResidues : PerPulse Nat) : EnergyBlock :=
  { acc := kept.mapWith fun _ x => { value := x.1, residue := x.2, gate := .running, creepRun := 0, lastHc := 0 }
    engines := pulseResidues.mapWith fun _ r => { residue := r, pending := 0, lost := 0, phase := .idle }
    s3 := s3, pendingSnapshot := none, nextSnapshot := 1
    lastSnapshot := { id := 0, tick := 0, hc := 0, requesters := noHosts, values := PerAcc.all 0 }
    lastCloseHc := 0, closes := [], handed := [] }

/-- R150. The first scrub pass is due when 100 ms have passed since the end of the reset (R147). -/
def ConfigController.afterReset (s3 : EnergyCfg) : ConfigController :=
  { committed := Table.withEnergy s3, generation := 0, code := (Table.withEnergy s3).code, fault := false, nextScrub := 100
    restartDue := none }

def LinkCounters.zero : LinkCounters := { badLead := 0, cut := 0, timeout := 0, length := 0, checkFail := 0 }

/-- 9.1 and R160. -/
def SyncLink.afterReset : SyncLink :=
  { counters := .zero, unfetched := 0, phase := .none, receipt := [], lastByte := 0, pending := none, fetchPos := 0, sdo := none }

/-- 9.1 and R160. -/
def AsyncLink.afterReset : AsyncLink :=
  { counters := .zero, overlap := 0, rateSpan := none, phase := .hunting, receipt := [], lastByte := 0, sending := none
    held := none }

/-- The state that a reset leaves, by its cause, the epoch after it, what it keeps of the Energy Block and S3, and the levels
of the pins, which are the outside's. The queue of commands and the count of draws are no part of what a reset clears. -/
def State.afterReset (cause : RestartCause) (epoch : W16) (s3 : EnergyCfg) (kept : PerAcc (W48 × Int))
    (pulseResidues : PerPulse Nat) (pins : Pins) (draws : Nat) (pending : List Instr) : State :=
  { front := .afterReset, det := .afterReset, journal := .afterReset cause epoch, sessions := PerPort.all none, token := none
    store := .afterReset pins.xtrigInHigh, energy := .afterReset s3 kept pulseResidues, config := .afterReset s3, lease := none
    queue := [], links := PerSync.all .afterReset, portC := .afterReset, attnLow := PerPort.all false, pins := pins
    draws := draws, pending := pending }

/-- The pins as nobody drives them: RESET released, XTRIG_IN low, both selects high. DESIGN CHOICE (log 2). -/
def Pins.idle : Pins := { resetLow := false, xtrigInHigh := false, selLow := PerSync.all false }

/-- The part right after a power-on reset. The count of draws is the model's own: DESIGN CHOICE 0 (log 10). -/
def State.reset : State :=
  State.afterReset .powerOn 1 energyDefaults (PerAcc.all (0, 0)) ⟨0, 0⟩ .idle 0 []

end Sys2Proof.Machine
end

