-- ==== Sys2Proof/Machine/Ops.lean ====
section
/-! DEFINITION. The named operations that the meanings share: counters, sequence arithmetic, time, rounding, bytes on the wire,
access to sessions, handing an append to the journal, and the journal's own procedure (chapter 1, R10 to R19). -/

namespace Sys2Proof.Machine

/-! ### Counters (conventions) -/

/-- A saturating counter goes up by one and stops at its limit. -/
def satInc (limit n : Nat) : Nat := min limit (n + 1)

/-- A saturating sum stops at its limit. -/
def satAdd (limit n k : Nat) : Nat := min limit (n + k)

/-- The limit of a 16-bit saturating counter. -/
abbrev limit16 : Nat := 65535
/-- The limit of an 8-bit saturating counter. -/
abbrev limit8 : Nat := 255
/-- The limit of a 24-bit saturating count of half-cycles. -/
abbrev limit24 : Nat := 0xFFFFFF

/-- The next value of an identity counter, or of the epoch: from the largest back to 1, skipping 0 (conventions, R11). -/
def idSucc (x : W16) : W16 := if x = 0xFFFF then 1 else x + 1

/-! ### Sequence numbers (conventions) -/

/-- "x + 1": the sequence number assigned after x. -/
def seqSucc (x : W32) : W32 := if x = 0xFFFFFFFF then 1 else x + 1

/-- The distance of x: the assignable numbers from x up to but not including `next`; zero is not assignable. -/
def distance (next x : W32) : Nat :=
  if x.toNat ≤ next.toNat then next.toNat - x.toNat else next.toNat + 0xFFFFFFFF - x.toNat

/-- x is at or before y. -/
def atOrBefore (next x y : W32) : Bool := distance next y ≤ distance next x

/-! ### Time -/

/-- Whether the tick counter has reached a tick: the counter wraps, and a timer counts as reached for half the counter's
range after its tick. DESIGN CHOICE (log 6): the event is taken at that tick or, if the sender lets ticks pass, later. -/
def reached (now due : W32) : Bool := (now - due).toNat < 0x80000000

/-- The tick that lies some milliseconds after another. -/
def afterMs (now : W32) (ms : Nat) : W32 := now + BitVec.ofNat 32 ms

/-! ### Rounding -/

/-- The quotient rounded to the nearest integer, halves away from zero (R45, R52). -/
def roundDiv (x : Int) (d : Nat) : Int :=
  let m : Int := ((2 * x.natAbs + d) / (2 * d) : Nat)
  if x < 0 then -m else m

/-- The largest r below 2^bits with r × r × frames at most the sum: the floor of the root of the mean. -/
def rootBits (sum frames : Nat) : Nat → Nat → Nat
  | 0, r => r
  | bits + 1, r =>
    let r' := r + 2 ^ bits
    rootBits sum frames bits (if r' * r' * frames ≤ sum then r' else r)

/-- The RMS of `frames` samples whose squares sum to `sum`: the root of the mean, to the nearest integer (R51). An exact half
is left open (`Config.rmsHalfGoesUp`, log 12). -/
def rootMeanSquare (sum frames : Nat) : Nat :=
  let r := rootBits sum frames 17 0
  let half := (2 * r + 1) * (2 * r + 1) * frames
  if 4 * sum < half then r
  else if half < 4 * sum then r + 1
  else if Config.rmsHalfGoesUp sum frames then r + 1 else r

/-! ### Bytes, most significant first (conventions) -/

/-- The low byte of a count. -/
def byteOf (n : Nat) : Byte := BitVec.ofNat 8 n
def be16 (x : W16) : List Byte := [x.extractLsb' 8 8, x.extractLsb' 0 8]
def be32 (x : W32) : List Byte := [x.extractLsb' 24 8, x.extractLsb' 16 8, x.extractLsb' 8 8, x.extractLsb' 0 8]
def be48 (x : W48) : List Byte :=
  [x.extractLsb' 40 8, x.extractLsb' 32 8, x.extractLsb' 24 8, x.extractLsb' 16 8, x.extractLsb' 8 8, x.extractLsb' 0 8]
/-- A count in two bytes. -/
def be16n (n : Nat) : List Byte := be16 (BitVec.ofNat 16 n)
/-- A count in three bytes. -/
def be24n (n : Nat) : List Byte := [byteOf (n / 65536), byteOf (n / 256), byteOf n]
/-- A signed quantity in four bytes, two's complement. -/
def be32i (x : Int) : List Byte := be32 (BitVec.ofInt 32 x)
def flagByte (b : Bool) : Byte := if b then 1 else 0

/-! ### Sessions -/

def State.session (s : State) (p : Port) : Option Session := s.sessions.get p

/-- A port's session replaced. -/
def State.setSession (s : State) (p : Port) (x : Option Session) : State := { s with sessions := s.sessions.set p x }

/-- A function of a port's session, on that port alone. -/
def State.onSession (s : State) (p : Port) (f : Session → Session) : State :=
  { s with sessions := s.sessions.set p ((s.sessions.get p).map f) }

/-- A function of every open session. -/
def State.onSessions (s : State) (f : Port → Session → Session) : State :=
  { s with sessions := s.sessions.mapWith fun p x => x.map (f p) }

/-- Whether a port's session is in HOLD: it holds the token (R26). -/
def State.inHold (s : State) (p : Port) : Bool := s.token == some p

/-- The tick counter and the hc counter as they stand (R2). -/
def State.nowTick (s : State) : W32 := s.front.tick
def State.nowHc (s : State) : W32 := s.front.hc

/-! ### Entries and classes (R3) -/

/-- The class of a kind. -/
def EntryBody.cls : EntryBody → EntryClass
  | .episodeOpen .. => .disturbance
  | .episodeClose .. => .disturbance
  | .captureSealed .. => .capture
  | .captureMissed .. => .capture
  | .captureReclaimed .. => .capture
  | .snapshot .. => .energy
  | .creepChange .. => .energy
  | .configCommit .. => .config
  | .leaseEvent .. => .config
  | .tallyCleared .. => .config
  | .sessionEvent .. => .session
  | .lineEvent .. => .line
  | .note .. => .note
  | .restart .. => .system
  | .gap .. => .system
  | .integrityFault .. => .system

/-- Whether a class mask holds a class. -/
def maskHas (mask : Byte) (c : EntryClass) : Bool := mask.getLsbD c.number

/-- The SYSTEM bit, which every mask holds. -/
def systemMask : Byte := 0x80

/-! ### Handing an append to the journal (R12) -/

/-- A block hands an append to the journal, where it waits until the journal takes it. -/
def State.hand (s : State) (source : Source) (tick hc : W32) (body : EntryBody) : State :=
  { s with journal := { s.journal with waiting := s.journal.waiting ++ [{ source, tick, hc, body }] } }

/-- The same for an event taken now: with the counters as they stand (R2). -/
def State.handNow (s : State) (source : Source) (body : EntryBody) : State := s.hand source s.nowTick s.nowHc body

/-! ### Storing an entry (R10, R15 to R19) -/

/-- The journal's capacity (R1). -/
abbrev journalCapacity : Nat := 384

/-- The entry joins at the newest end with `next_seq`, which advances (R10). -/
def Journal.push (j : Journal) (tick hc : W32) (body : EntryBody) : Journal :=
  { j with entries := j.entries ++ [{ seq := j.nextSeq, tick, hc, body }], nextSeq := seqSucc j.nextSeq }

/-- Whether a session pins an entry: it is subscribed to its class, and its ack point is at or before it (R16). -/
def Session.pinsEntry (x : Session) (next : W32) (e : Entry) : Bool :=
  maskHas x.mask e.body.cls && atOrBefore next x.ackPoint e.seq

/-- Whether a port's open session pins an entry. -/
def State.pinner (s : State) (e : Entry) (p : Port) : Bool :=
  match s.session p with
  | none => false
  | some x => x.pinsEntry s.journal.nextSeq e

/-- Whether a pinner of the entry is in HOLD (R16, R17). -/
def State.heldBack (s : State) (e : Entry) : Bool := allPorts.any fun p => s.pinner e p && s.inHold p

/-- What the removal of the oldest entry does to an open session: a pinner is overrun (R18), and a cursor or an ack point at
or before the entry moves to the number after it (R19). -/
def Session.passRemoved (x : Session) (next : W32) (e : Entry) : Session :=
  let loses := x.pinsEntry next e
  { x with
    overrunCount := if loses then satInc limit16 x.overrunCount else x.overrunCount
    latches := { x.latches with overrun := x.latches.overrun || loses }
    cursor := if atOrBefore next x.cursor e.seq then seqSucc e.seq else x.cursor
    ackPoint := if atOrBefore next x.ackPoint e.seq then seqSucc e.seq else x.ackPoint }

/-- One store attempt (R15 to R19): the state after it, and the sequence number if the entry is stored. -/
def State.tryStore (s : State) (tick hc : W32) (body : EntryBody) : State × Option W32 :=
  if s.journal.entries.length < journalCapacity then
    ({ s with journal := s.journal.push tick hc body }, some s.journal.nextSeq)
  else
    match s.journal.entries with
    | [] => ({ s with journal := s.journal.push tick hc body }, some s.journal.nextSeq)
    | e :: rest =>
      if s.heldBack e then (s, none)
      else
        let s' := s.onSessions fun _ x => x.passRemoved s.journal.nextSeq e
        ({ s' with journal := { s.journal with entries := rest }.push tick hc body }, some s.journal.nextSeq)

/-! ### The loss tally (R13, R14) -/

/-- The tally is empty when all eight lost counts are 0 (1.4). -/
def LossTally.isEmpty (t : LossTally) : Bool := allClasses.all fun c => t.counts.get c == 0

/-- A loss counted under its class (R13). -/
def LossTally.count (t : LossTally) (c : EntryClass) (tick : W32) : LossTally :=
  { counts := t.counts.set c (satInc limit16 (t.counts.get c))
    first := if t.isEmpty then tick else t.first
    last := tick }

/-- An entry that is not stored is counted in the tally (R13). -/
def State.countLost (s : State) (tick : W32) (body : EntryBody) : State :=
  { s with journal := { s.journal with tally := s.journal.tally.count body.cls tick } }

/-- The store attempt of the entry itself: stored, or counted as lost (R13, R17). -/
def State.storeOrCount (s : State) (tick hc : W32) (body : EntryBody) : State × Option W32 :=
  match s.tryStore tick hc body with
  | (s', some seq) => (s', some seq)
  | (s', none) => (s'.countLost tick body, none)

/-- One append taken whole (R12, R14): with a non-zero tally a GAP is tried first, at the append's own tick and hc. -/
def State.takeAppend (s : State) (tick hc : W32) (body : EntryBody) : State × Option W32 :=
  if s.journal.tally.isEmpty then s.storeOrCount tick hc body
  else
    let t := s.journal.tally
    match s.tryStore tick hc (.gap t.counts t.first t.last) with
    | (s', some _) => { s' with journal := { s'.journal with tally := .empty } }.storeOrCount tick hc body
    | (s', none) => (s'.countLost tick body, none)

/-- The journal takes every append that waits, in the order they were handed. -/
def State.settle (s : State) : State :=
  s.journal.waiting.foldl (fun s a => (s.takeAppend a.tick a.hc a.body).1) { s with journal := { s.journal with waiting := [] } }

/-- An append whose outcome its own event needs: the journal first takes what waits, then this one (log 4). -/
def State.appendNow (s : State) (body : EntryBody) : State × Option W32 :=
  s.settle.takeAppend s.nowTick s.nowHc body

/-- The oldest waiting append of a block, and the others. -/
def firstOf (source : Source) : List Append → Option (Append × List Append)
  | [] => none
  | a :: rest =>
    if a.source = source then some (a, rest)
    else match firstOf source rest with
      | none => none
      | some (b, others) => some (b, a :: others)

/-! ### The journal as a session sees it (R24, R27) -/

/-- The entry lies at or after a sequence number. -/
def Entry.atOrAfter (e : Entry) (next x : W32) : Bool := atOrBefore next x e.seq

/-- Whether an entry is deliverable to a session (R27). -/
def Session.deliverable (x : Session) (next : W32) (e : Entry) : Bool :=
  e.atOrAfter next x.cursor && maskHas x.mask e.body.cls

/-- A session's deliverable count (R27). -/
def Session.deliverableCount (x : Session) (j : Journal) : Nat := j.entries.countP (x.deliverable j.nextSeq)

/-- The sequence number of the oldest stored entry. After every reset the journal is never empty (R1, log 14). -/
def Journal.oldestSeq (j : Journal) : W32 :=
  match j.entries with
  | [] => j.nextSeq
  | e :: _ => e.seq

end Sys2Proof.Machine
end

