-- ==== Sys2Proof/Machine/Flags.lean ====
section
/-! DEFINITION. The computed flags: the remaining time of the lease, the eight attention causes of a session and the level of
its ATTN line (chapter 8), and the end of every meaning, which drives the lines again. -/

namespace Sys2Proof.Machine

/-- The remaining time of a tenure in ms: expiry minus the tick counter, 0 once the expiry tick is reached (R132). -/
def remainingMs (now expiry : W32) : Nat := if reached now expiry then 0 else (expiry - now).toNat

/-- LEASE_WARN begins at this remaining time (R138). -/
abbrev leaseWarnMs : Nat := 2000

/-- The port holds the lease. -/
def State.holdsLease (s : State) (p : Port) : Bool :=
  match s.lease with
  | none => false
  | some t => t.holder == p

/-- LEASE_WARN: the session holds the lease and the remaining time is 2000 ms or less (R153). -/
def State.leaseWarn (s : State) (p : Port) : Bool :=
  match s.lease with
  | none => false
  | some t => t.holder == p && remainingMs s.nowTick t.expiry ≤ leaseWarnMs

/-- UNREAD: the deliverable count is at or above the watermark (R152). -/
def State.unread (s : State) (x : Session) : Bool := x.watermark ≤ x.deliverableCount s.journal

/-- A bit of a cause set. -/
def bitAt (n : Nat) (b : Bool) : Byte := if b then BitVec.ofNat 8 (2 ^ n) else 0

/-- The cause set of a session: bit n for cause n (8.1, R151). -/
def State.causeSet (s : State) (p : Port) (x : Session) : Byte :=
  bitAt 0 (s.unread x) ||| bitAt 1 x.latches.overrun ||| bitAt 2 x.latches.leaseGranted ||| bitAt 3 (s.leaseWarn p)
    ||| bitAt 4 x.latches.captureReclaimed ||| bitAt 5 x.latches.pulseLost ||| bitAt 6 x.latches.snapshotDone
    ||| bitAt 7 s.config.fault

/-- Whether ATTN_x is low: the session is open and a cause of its set is in its attention mask (R158). While RESET is held
low all three lines are high (R159). -/
def State.lineLow (s : State) (p : Port) : Bool :=
  match s.session p with
  | none => false
  | some x => !s.pins.resetLow && s.causeSet p x &&& x.attnMask != 0

/-- The Attention Logic drives the three lines (R158). -/
def State.drive (s : State) : State := { s with attnLow := ⟨s.lineLow .a, s.lineLow .b, s.lineLow .c⟩ }

/-- The end of every meaning: a next state, with the lines driven as part of the same event (R158). -/
def State.done (s : State) : Host.Outcome State Fault Refusal := .next s.drive

/-- A command taken by the running part. While RESET is held low nothing is taken: the reset has ended everything that the
command could concern (R21, R44, log 5). -/
def State.whenRunning (s : State) (f : State → State) : Host.Outcome State Fault Refusal :=
  if s.pins.resetLow then s.done else (f s).done

/-! ### Latches (R154) -/

/-- A latch of one port's session set, where it is open. -/
def State.latch (s : State) (p : Port) (f : Latches → Latches) : State :=
  s.onSession p fun x => { x with latches := f x.latches }

/-- A latch of every open session in a set of hosts. -/
def State.latchHosts (s : State) (h : HostSet) (f : Latches → Latches) : State :=
  s.onSessions fun p x => if h.get p then { x with latches := f x.latches } else x

def Latches.setLeaseGranted (l : Latches) : Latches := { l with leaseGranted := true }
def Latches.setCaptureReclaimed (l : Latches) : Latches := { l with captureReclaimed := true }
def Latches.setPulseLost (l : Latches) : Latches := { l with pulseLost := true }
def Latches.setSnapshotDone (l : Latches) : Latches := { l with snapshotDone := true }
def Latches.clearOverrun (l : Latches) : Latches := { l with overrun := false }
def Latches.clearLeaseGranted (l : Latches) : Latches := { l with leaseGranted := false }
def Latches.clearPulseLost (l : Latches) : Latches := { l with pulseLost := false }
def Latches.clearSnapshotDone (l : Latches) : Latches := { l with snapshotDone := false }
/-- What ATTENTION_STATUS clears: the four latches other than OVERRUN (R156). -/
def Latches.clearReported (l : Latches) : Latches :=
  { l with leaseGranted := false, captureReclaimed := false, pulseLost := false, snapshotDone := false }
def Latches.none : Latches :=
  { overrun := false, leaseGranted := false, captureReclaimed := false, pulseLost := false, snapshotDone := false }

end Sys2Proof.Machine
end

