-- ==== Sys2Proof/Machine/Front.lean ====
section
/-! DEFINITION. The Front End (chapter 3): a frame taken, the crossing test, the close of a half-cycle and its summary, the line
state, and the tick clock. -/

namespace Sys2Proof.Machine

/-- A raw sample times its gain, divided by 32768, to the nearest integer with halves away from zero, kept within 16 bits
(R45). -/
def scaleSample (raw gain : W16) : W16 :=
  BitVec.ofInt 16 (max (-32768) (min 32767 (roundDiv (raw.toInt * gain.toNat) 32768)))

/-- A raw frame under the gains of an S0 (R45). -/
def scaleFrame (cfg : FrontCfg) (raw : Frame) : Frame :=
  { u := scaleSample raw.u cfg.gainU, ia := scaleSample raw.ia cfg.gainIA, ib := scaleSample raw.ib cfg.gainIB }

/-- The least frame count of a genuine close (R48). -/
abbrev guardFrames : Nat := 32

/-- The nominal frequency in force is 60 Hz; a validated table holds 50 or 60 (R144, log 15). -/
def FrontCfg.is60 (cfg : FrontCfg) : Bool := cfg.nominal == 60

/-- The frame count at which a synthetic close is made (3.3, R49). -/
def waitLimit (cfg : FrontCfg) : WaitKind → Nat
  | .timeout => if cfg.is60 then 84 else 96
  | .interval => if cfg.is60 then 52 else 64

/-- How many frames back U′ lies: a quarter of the nominal period (R52). -/
def quarterFrames (cfg : FrontCfg) : Nat := if cfg.is60 then 27 else 32

/-- U′: the U sample a quarter of the nominal period earlier, from the history before this frame (R52). -/
def uQuarter (cfg : FrontCfg) (history : List W16) : W16 := history.getD (quarterFrames cfg - 1) 0

/-- A frame joins the open half-cycle (R49, 3.4). -/
def OpenHalfCycle.join (h : OpenHalfCycle) (f : Frame) (uq : W16) : OpenHalfCycle :=
  let u := f.u.toInt
  let a := f.ia.toInt
  let b := f.ib.toInt
  { n := h.n + 1
    sumUU := h.sumUU + u.natAbs * u.natAbs
    sumAA := h.sumAA + a.natAbs * a.natAbs
    sumBB := h.sumBB + b.natAbs * b.natAbs
    sumDD := h.sumDD + (a - b).natAbs * (a - b).natAbs
    peakU := max h.peakU u.natAbs
    peakA := max h.peakA a.natAbs
    peakB := max h.peakB b.natAbs
    sumUA := h.sumUA + u * a
    sumUB := h.sumUB + u * b
    sumQA := h.sumQA + uq.toInt * a
    sumQB := h.sumQB + uq.toInt * b }

/-- The summary of the frames in the open half-cycle (R51, R52). -/
def OpenHalfCycle.summary (h : OpenHalfCycle) (hc : W32) (polarity : Polarity) (synthetic : Bool) : Summary :=
  let uRms := rootMeanSquare h.sumUU h.n
  let iaRms := rootMeanSquare h.sumAA h.n
  let ibRms := rootMeanSquare h.sumBB h.n
  { hc, polarity, n := h.n, synthetic
    uRms, iaRms, ibRms
    residRms := min limit16 (rootMeanSquare h.sumDD h.n)
    uPeak := h.peakU, iaPeak := h.peakA, ibPeak := h.peakB
    pA := roundDiv h.sumUA (100 * h.n), pB := roundDiv h.sumUB (100 * h.n)
    qA := roundDiv h.sumQA (100 * h.n), qB := roundDiv h.sumQB (100 * h.n)
    sA := roundDiv ((uRms * iaRms : Nat) : Int) 100, sB := roundDiv ((uRms * ibRms : Nat) : Int) 100 }

/-- The line state and the genuine run after a close, and the LINE_EVENT that the change calls for (R56, R57). The run is not
kept in TRACKING: it stands at 0 there (log 16). -/
def lineAfter (state : LineState) (run : Nat) (synthetic : Bool) : LineState × Nat × Option LineEventKind :=
  match state, synthetic with
  | .tracking, false => (.tracking, 0, none)
  | .tracking, true => (.lost, 0, some .lost)
  | other, true => (other, 0, none)
  | other, false => if run + 1 < 4 then (other, run + 1, none) else (.tracking, 0, some .tracking)

/-- The U history with one more sample, the newest first, of the last 32 (R52). -/
def pushHistory (history : List W16) (u : W16) : List W16 := (u :: history).take 32

/-- Step 3 of a close: a change of the line state is handed to the journal at the close's tick and hc (R57). -/
def State.handLineEvent (s : State) (hc : W32) (event : Option LineEventKind) : State :=
  match event with
  | none => s
  | some e => s.hand .frontEnd s.nowTick hc (.lineEvent e)

/-- A close on the arrival of a deciding frame (R50). `raw` is the frame before scaling: step 7 scales it by the gains then in
force. -/
def State.closeHalfCycle (s : State) (raw : Frame) (polarity : Polarity) (synthetic : Bool) : State :=
  let fe := s.front
  let hc := fe.hc + 1
  let summary := fe.opened.summary hc polarity synthetic
  let line := lineAfter fe.lineState fe.genuineRun synthetic
  let s0 := s.config.committed.front
  let again := scaleFrame s0 raw
  let handed : HandedClose := { summary, tick := fe.tick }
  let s := s.handLineEvent hc line.2.2
  { s with
    front :=
      { fe with
        hc
        lineState := line.1
        genuineRun := line.2.1
        image := { summary, closeTick := fe.tick, lineState := line.1 }
        s0
        wait := if synthetic then .interval else .timeout
        opened := OpenHalfCycle.empty.join again (uQuarter s0 fe.uHistory) }
    det := { s.det with inbox := s.det.inbox ++ [handed] }
    energy := { s.energy with closes := s.energy.closes ++ [handed] } }

/-- A frame that makes no close joins the open half-cycle (R49). -/
def State.joinFrame (s : State) (f : Frame) : State :=
  { s with front := { s.front with opened := s.front.opened.join f (uQuarter s.front.s0 s.front.uHistory) } }

/-- A frame taken (R44): handed to the Capture Store first, with the tick and the hc before any close it makes; then tested as
a crossing (R48), against the wait limit (R49), and put into the open or the next half-cycle. -/
def State.takeFrame (s : State) (raw : Frame) : State :=
  let fe := s.front
  let f := scaleFrame fe.s0 raw
  let negative := f.u.msb
  let s := { s with store := { s.store with inbox := s.store.inbox ++ [CapEvent.frame { frame := f, tick := fe.tick, hc := fe.hc }] } }
  let crossing := match fe.prevNegative with | none => false | some was => was != negative
  let s :=
    if crossing && guardFrames ≤ fe.opened.n then s.closeHalfCycle raw (if negative then .pos else .neg) false
    else if waitLimit fe.s0 fe.wait ≤ fe.opened.n then s.closeHalfCycle raw .noSign true
    else s.joinFrame f
  { s with front := { s.front with prevNegative := some negative, uHistory := pushHistory fe.uHistory f.u } }

/-- FRAME_TAKEN: one raw sample of each channel. -/
def execFrameTaken (u ia ib : W16) (s : State) : Host.Outcome State Fault Refusal :=
  s.whenRunning fun s => s.takeFrame { u, ia, ib }

/-- TICK_COUNT: the tick counter adds 1 each millisecond and wraps (R46). A level cause that follows the remaining time of the
lease takes its line with it (R153, R158). -/
def execTickCount (s : State) : Host.Outcome State Fault Refusal :=
  s.whenRunning fun s => { s with front := { s.front with tick := s.front.tick + 1 } }

end Sys2Proof.Machine
end

