-- ==== Sys2Proof/Machine/Detectors.lean ====
section
/-! DEFINITION. The Detector Bank (chapter 4): the two tests, the judging rules, episodes, tallies, and the changes of S1. -/

namespace Sys2Proof.Machine

/-- A detector's input from a summary (4.1). -/
def DetId.input (d : DetId) (x : Summary) : Nat :=
  match d with
  | .uDip => x.uRms | .uSwell => x.uRms | .uIntr => x.uRms
  | .iaOver => x.iaRms | .ibOver => x.ibRms | .iResid => x.residRms

/-- The beyond test (R63). -/
def beyond (d : DetId) (cfg : DetCfg) (input : Nat) : Bool :=
  if d.isBelow then input < cfg.onset.toNat else cfg.onset.toNat < input

/-- The released test (R63). -/
def released (d : DetId) (cfg : DetCfg) (input : Nat) : Bool :=
  if d.isBelow then cfg.release.toNat ≤ input else input ≤ cfg.release.toNat

/-- The extreme follows a judged half-cycle (R70). -/
def moveExtreme (d : DetId) (extreme input : Nat) : Nat := if d.isBelow then min extreme input else max extreme input

/-- A detector without run or episode, in a given state: IDLE or QUIET (R61). -/
def Detector.cleared (x : Detector) (state : DetState) : Detector :=
  { x with state, run := 0, episode := 0, startHc := 0, extreme := 0, age := 0, span := 0 }

/-- What judging a half-cycle calls for beyond the record itself. -/
inductive Judgement where
  | nothing
  | opens
  | closes
  deriving DecidableEq, Repr

/-- A half-cycle judged in QUIET (R65). -/
def judgeQuiet (d : DetId) (input : Nat) (hc : W32) (x : Detector) : Detector × Judgement :=
  if beyond d x.cfg input then
    let x' := { x with state := .onset, run := 1, startHc := hc, extreme := input, age := 1, span := 1 }
    (x', if x.cfg.onsetCount.toNat ≤ 1 then .opens else .nothing)
  else (x, .nothing)

/-- A half-cycle judged in ONSET (R66). -/
def judgeOnset (d : DetId) (input : Nat) (x : Detector) : Detector × Judgement :=
  if beyond d x.cfg input then
    let x' := { x with
      run := x.run + 1, age := satInc limit24 x.age, span := satInc limit24 x.span, extreme := moveExtreme d x.extreme input }
    (x', if x.cfg.onsetCount.toNat ≤ x.run + 1 then .opens else .nothing)
  else (x.cleared .quiet, .nothing)

/-- A half-cycle judged in ACTIVE (R67). -/
def judgeActive (d : DetId) (input : Nat) (x : Detector) : Detector × Judgement :=
  let x' := { x with age := satInc limit24 x.age, extreme := moveExtreme d x.extreme input }
  if released d x.cfg input then
    ({ x' with state := .release, run := 1 }, if x.cfg.releaseCount.toNat ≤ 1 then .closes else .nothing)
  else ({ x' with span := x'.age }, .nothing)

/-- A half-cycle judged in RELEASE (R68). -/
def judgeRelease (d : DetId) (input : Nat) (x : Detector) : Detector × Judgement :=
  let x' := { x with age := satInc limit24 x.age, extreme := moveExtreme d x.extreme input }
  if released d x.cfg input then
    ({ x' with run := x.run + 1 }, if x.cfg.releaseCount.toNat ≤ x.run + 1 then .closes else .nothing)
  else ({ x' with state := .active, run := 0, span := x'.age }, .nothing)

/-- A detector judged by the rule for its state; one in IDLE is not judged (R64). -/
def judge (d : DetId) (input : Nat) (hc : W32) (x : Detector) : Detector × Judgement :=
  match x.state with
  | .idle => (x, .nothing)
  | .quiet => judgeQuiet d input hc x
  | .onset => judgeOnset d input x
  | .active => judgeActive d input x
  | .release => judgeRelease d input x

/-- A detector's record replaced. -/
def State.setDet (s : State) (d : DetId) (x : Detector) : State :=
  { s with det := { s.det with dets := s.det.dets.set d x } }

/-- A trigger handed to the Capture Store (R73, R87). -/
def State.raiseTrigger (s : State) (source : TrigSource) (tick hc : W32) : State :=
  { s with store := { s.store with inbox := s.store.inbox ++ [CapEvent.trigger source tick hc] } }

/-- An episode opens (R69): it takes the next episode number, the detector enters ACTIVE, EPISODE_OPEN is handed to the journal,
and an onset trigger to the Capture Store where the S1 in force asks for it. -/
def State.openEpisode (s : State) (d : DetId) (x : Detector) (close : HandedClose) : State :=
  let number := s.det.nextEpisode
  let s := s.setDet d { x with state := .active, run := 0, episode := number }
  let s := { s with det := { s.det with nextEpisode := idSucc number } }
  let s := s.hand .detectorBank close.tick close.summary.hc (.episodeOpen d number x.startHc x.extreme)
  if x.cfg.trigOnset = 1 then s.raiseTrigger (.onset d) close.tick close.summary.hc else s

/-- A closing episode in its detector's tally (R74). -/
def Detector.tallied (x : Detector) (duration : Nat) : Detector :=
  { x with tallyCount := satInc limit16 x.tallyCount, tallySum := satAdd limit24 x.tallySum duration }

/-- An episode closes normally (R71): its duration is the span. -/
def State.closeEpisode (s : State) (d : DetId) (x : Detector) (close : HandedClose) : State :=
  let s := s.setDet d ((x.tallied x.span).cleared .quiet)
  let s := s.hand .detectorBank close.tick close.summary.hc (.episodeClose d x.episode x.startHc x.span x.extreme .normal)
  if x.cfg.trigRelease = 1 then s.raiseTrigger (.release d) close.tick close.summary.hc else s

/-- One detector judged against a summary (step 2 of R64). -/
def State.judgeDetector (close : HandedClose) (s : State) (d : DetId) : State :=
  match judge d (d.input close.summary) close.summary.hc (s.det.dets.get d) with
  | (x, .nothing) => s.setDet d x
  | (x, .opens) => s.openEpisode d x close
  | (x, .closes) => s.closeEpisode d x close

/-! ### Changes of S1 (4.7) -/

/-- The duration of a cut episode: the hc of the cutting close minus the start hc, modulo 2^32, saturating (R79). For an episode open
for 2^32 half-cycles or more this is no longer its age (log 33). -/
def cutDuration (x : Detector) (hc : W32) : Nat := min limit24 (hc - x.startHc).toNat

/-- A level or a count differs (R78). -/
def levelsOrCountsDiffer (a b : DetCfg) : Bool :=
  a.onset != b.onset || a.release != b.release || a.onsetCount != b.onsetCount || a.releaseCount != b.releaseCount

/-- An open episode cut by configuration (R79). -/
def State.cutEpisode (s : State) (d : DetId) (x : Detector) (close : HandedClose) : State :=
  let duration := cutDuration x close.summary.hc
  let s := s.setDet d ((x.tallied duration).cleared .idle)
  s.hand .detectorBank close.tick close.summary.hc (.episodeClose d x.episode x.startHc duration x.extreme .cutByConfig)

/-- A detector moved by a changed record, where the change cuts no episode (R78). -/
def Detector.movedBy (x : Detector) (old new : DetCfg) : Detector :=
  let x := { x with cfg := new }
  if old.enable = 1 ∧ new.enable ≠ 1 then x.cleared .idle
  else if old.enable ≠ 1 ∧ new.enable = 1 then x.cleared .quiet
  else if new.enable ≠ 1 then x
  else if levelsOrCountsDiffer old new then
    match x.state with
    | .onset => x.cleared .quiet
    | .release => { x with state := .active, run := 0, span := x.age }
    | _ => x
  else x

/-- A detector's S1 in force brought up to date with the committed record (step 1 of R64, R78). -/
def State.updateDetector (close : HandedClose) (s : State) (d : DetId) : State :=
  let x := s.det.dets.get d
  let new := s.config.committed.det.get d
  if x.cfg = new then s
  else if x.cfg.enable = 1 ∧ new.enable ≠ 1 ∧ (x.state = .active ∨ x.state = .release) then
    s.cutEpisode d { x with cfg := new } close
  else s.setDet d (x.movedBy x.cfg new)

/-- The Detector Bank takes a summary (R64): step 1 for all six detectors, then step 2 for all six. -/
def State.takeDetectorClose (s : State) (close : HandedClose) : State :=
  allDetectors.foldl (State.judgeDetector close) (allDetectors.foldl (State.updateDetector close) s)

/-- DETECTOR_CLOSE: the oldest summary handed to the bank. With none handed there is nothing to take (log 3). -/
def execDetectorClose (s : State) : Host.Outcome State Fault Refusal :=
  s.whenRunning fun s =>
    match s.det.inbox with
    | [] => s
    | close :: rest => { s with det := { s.det with inbox := rest } }.takeDetectorClose close

end Sys2Proof.Machine
end

