-- ==== Sys2Proof/Machine/Capture.lean ====
section
/-! DEFINITION. The Capture Store (chapter 5): frames and the live ring, triggers, recording and sealing, taking a slot and
reclaiming, holders, configuration changes, and the cross-trigger lines. -/

namespace Sys2Proof.Machine

/-- Frames in a slot (R83). -/
abbrev slotFrames : Nat := 1024
/-- Entries a trigger list holds (R89). -/
abbrev triggerListLimit : Nat := 8

def allSlots : List SlotId := [0, 1, 2, 3, 4, 5, 6, 7]

/-! ### Views of the store -/

/-- The frames a capture has recorded. -/
def Capture.recorded (c : Capture) : Nat := c.frames.length
/-- The frames a recording capture still has to record into its POST part. -/
def Capture.toRecord (c : Capture) : Nat := c.slots.length * slotFrames - c.frames.length
/-- The trigger list, in the order the triggers were taken. -/
def Capture.triggers (c : Capture) : List TrigEntry := c.firstTrigger :: c.moreTriggers

/-- The recording capture, if there is one: exactly in POST (R84). -/
def CaptureStore.recording (st : CaptureStore) : Option Capture :=
  match st.mode with
  | .post c => some c
  | _ => none

/-- The capture table: sealed records in seal order, then a RECORDING one (R84, R102). -/
def CaptureStore.table (st : CaptureStore) : List Capture := st.sealedCaptures ++ st.recording.toList

/-- The record that holds a capture id. -/
def CaptureStore.find (st : CaptureStore) (id : W16) : Option Capture := st.table.find? fun c => c.id == id

/-- The live count (R86). -/
def CaptureStore.liveCount (st : CaptureStore) : Nat :=
  match st.mode with
  | .live _ ring => ring.length
  | _ => 0

/-- Whether a slot is the POST slot: the last slot of the recording capture. -/
def CaptureStore.isPost (st : CaptureStore) (i : SlotId) : Bool :=
  match st.recording with
  | none => false
  | some c => c.slots.getLast? == some i

/-- Whether a slot is the LIVE slot. -/
def CaptureStore.isLive (st : CaptureStore) (i : SlotId) : Bool :=
  match st.mode with
  | .live slot _ => slot == i
  | _ => false

/-- Slot states with the codes of R182: 0 FREE, 1 LIVE, 2 POST, 3 SEALED. -/
inductive SlotState where
  | free | live | post | sealed
  deriving DecidableEq, Repr

/-- The state of a slot (R83, R84). -/
def CaptureStore.slotState (st : CaptureStore) (i : SlotId) : SlotState :=
  if st.isLive i then .live
  else if st.isPost i then .post
  else if st.table.any fun c => c.slots.contains i then .sealed
  else .free

/-! ### Taking a slot and reclaiming (R96) -/

/-- The lowest-numbered slot of a list. -/
def lowestOf (l : List SlotId) : Option SlotId := allSlots.find? l.contains

/-- The lowest-numbered slot that is not among those in use. -/
def lowestFree (used : List SlotId) : Option SlotId := allSlots.find? fun i => !used.contains i

/-- A capture nobody holds. -/
def Capture.unheld (c : Capture) : Bool := !(c.holders.a || c.holders.b || c.holders.c)

/-- A capture whose holders are all in YIELD: the HOLD session is not among them. -/
def Capture.heldByYield (c : Capture) (token : Option Port) : Bool :=
  match token with
  | none => true
  | some p => !c.holders.get p

/-- The sealed capture that R96 reclaims: the earliest with an empty holder set, else the earliest held by YIELD sessions. -/
def reclaimChoice (sealedCaptures : List Capture) (token : Option Port) : Option Capture :=
  match sealedCaptures.find? Capture.unheld with
  | some c => some c
  | none => sealedCaptures.find? fun c => c.heldByYield token

/-- A sealed capture reclaimed: its record leaves the seal order, CAPTURE_RECLAIMED is handed to the journal with its holders,
and each of them is latched (R96). -/
def State.reclaim (s : State) (c : Capture) (tick hc : W32) : State :=
  let s := { s with store := { s.store with sealedCaptures := s.store.sealedCaptures.filter fun x => x.id != c.id } }
  let s := s.hand .captureStore tick hc (.captureReclaimed c.id c.holders)
  s.latchHosts c.holders Latches.setCaptureReclaimed

/-- A slot taken, if one can be (R96). `busy` is the recording capture's slots when a new part needs one. -/
def State.takeSlot (s : State) (busy : List SlotId) (tick hc : W32) : State × Option SlotId :=
  match lowestFree (s.store.sealedCaptures.flatMap Capture.slots ++ busy) with
  | some i => (s, some i)
  | none =>
    match reclaimChoice s.store.sealedCaptures s.token with
    | none => (s, none)
    | some c => (s.reclaim c tick hc, lowestOf c.slots)

/-- The store's state replaced. -/
def State.setMode (s : State) (m : StoreMode) : State := { s with store := { s.store with mode := m } }

/-- A slot taken for the live ring: LIVE with live count 0, or STARVED (R95, R97, R104). -/
def State.armStore (s : State) (tick hc : W32) : State :=
  match s.takeSlot [] tick hc with
  | (s, some i) => s.setMode (.live i [])
  | (s, none) => s.setMode .starved

/-- The retry of a STARVED store; in any other state there is none (R97). What it reclaims is reported with the counters as they
stand when the store takes the event that lets it try again (R2, log 32). -/
def State.retryStarved (s : State) : State :=
  match s.store.mode with
  | .starved => s.armStore s.nowTick s.nowHc
  | _ => s

/-! ### Sealing (R94, R95) -/

/-- The sessions whose mask includes CAPTURE (R95). -/
def State.captureHolders (s : State) : HostSet :=
  s.sessions.mapWith fun _ x => match x with | none => false | some x => maskHas x.mask .capture

/-- The CAPTURE_SEALED entry of a completed capture (R5, R95). -/
def Capture.sealedEntry (c : Capture) : EntryBody :=
  .captureSealed c.id c.slots c.triggers.length c.firstTrigger.source c.pre c.flags c.extra

/-- A capture completes (R95), at the tick and hc of its completing frame. -/
def State.completeCapture (s : State) (c : Capture) (tick hc : W32) : State :=
  let c := { c with continueFlag := false, holders := s.captureHolders }
  let s := { s with store := { s.store with sealedCaptures := s.store.sealedCaptures ++ [c] } }
  let s := s.hand .captureStore tick hc c.sealedEntry
  if s.store.s2.armed = 1 then s.armStore tick hc else s.setMode .disarmed

/-- The POST slot is full (R94). -/
def State.partFull (s : State) (c : Capture) (tick hc : W32) : State :=
  if c.continueFlag = true ∧ s.store.s2.armed = 1 then
    match s.takeSlot c.slots tick hc with
    | (s, some i) =>
      s.setMode (.post { c with slots := c.slots ++ [i], continueFlag := false, flags := { c.flags with chained := true } })
    | (s, none) => s.completeCapture { c with flags := { c.flags with chainCut := true } } tick hc
  else s.completeCapture c tick hc

/-! ### Frames (R86) -/

/-- The live ring with one more frame, the oldest overwritten when 1024 are there. -/
def pushRing (ring : List Frame) (f : Frame) : List Frame := (ring ++ [f]).drop (ring.length + 1 - slotFrames)

/-- The store takes a frame (R86). -/
def State.captureFrame (s : State) (f : StampedFrame) : State :=
  match s.store.mode with
  | .live slot ring => s.setMode (.live slot (pushRing ring f.frame))
  | .post c =>
    let c := { c with frames := c.frames ++ [f.frame] }
    if c.toRecord = 0 then s.partFull c f.tick f.hc else s.setMode (.post c)
  | .disarmed => s
  | .starved => s

/-! ### Triggers (R87 to R90) -/

/-- The next capture id: one more, skipping 0 and every id a record in the table still holds (R84). -/
def nextCaptureId (held : List W16) : Nat → W16 → W16
  | 0, id => id
  | fuel + 1, id => if held.contains (idSucc id) then nextCaptureId held fuel (idSucc id) else idSucc id

/-- A trigger taken in LIVE starts a capture (R88). -/
def State.startCapture (s : State) (slot : SlotId) (ring : List Frame) (source : TrigSource) (tick hc : W32) : State :=
  let want := s.store.s2.pre.toNat
  let pre := min want ring.length
  let c : Capture :=
    { id := s.store.nextId, slots := [slot], chainLimit := s.store.s2.chainLimit.toNat, pre, firstTick := tick, firstHc := hc
      firstTrigger := { source, offset := pre, hc }, moreTriggers := [], extra := 0, continueFlag := false
      flags := { shortPre := decide (pre < want), chained := false, chainCut := false }, holders := noHosts
      frames := ring.drop (ring.length - pre) }
  { s with
    store :=
      { s.store with
        mode := .post c
        nextId := nextCaptureId (c.id :: s.store.sealedCaptures.map Capture.id) 10 c.id
        xtrigOut := if s.store.s2.xtrigOut = 1 then some (afterMs s.nowTick 1) else s.store.xtrigOut } }

/-- Whether a recording capture's trigger list has room. -/
def Capture.listsNext (c : Capture) : Bool := c.triggers.length < triggerListLimit

/-- A trigger taken in POST joins the recording capture (R89). -/
def Capture.joined (c : Capture) (source : TrigSource) (hc : W32) : Capture :=
  let c' :=
    if c.listsNext then { c with moreTriggers := c.moreTriggers ++ [{ source, offset := c.recorded, hc }] }
    else { c with extra := satInc limit8 c.extra }
  if c.slots.length < c.chainLimit then { c' with continueFlag := true } else c'

/-- A trigger taken by the store state it finds (R88, R89, R90). -/
def State.takeTrigger (s : State) (source : TrigSource) (tick hc : W32) : State :=
  match s.store.mode with
  | .live slot ring => s.startCapture slot ring source tick hc
  | .post c => s.setMode (.post (c.joined source hc))
  | .disarmed => s.hand .captureStore tick hc (.captureMissed source .disarmed)
  | .starved => s.hand .captureStore tick hc (.captureMissed source .noSlot)

/-! ### Configuration (R104, R105) -/

/-- A committed S2 taken by the store. A capture that arming or a retry reclaims is reported with the counters as they stand when the
store takes it, not those at which COMMIT was taken (R2, log 32). -/
def State.takeS2 (s : State) (new : CapCfg) : State :=
  let old := s.store.s2
  let s := { s with store := { s.store with s2 := new } }
  if old.armed = 1 ∧ new.armed ≠ 1 then
    match s.store.mode with
    | .live _ _ => s.setMode .disarmed
    | .starved => s.setMode .disarmed
    | .post _ => s
    | .disarmed => s
  else if old.armed ≠ 1 ∧ new.armed = 1 then
    match s.store.mode with
    | .disarmed => s.armStore s.nowTick s.nowHc
    | _ => s
  else if old = new then s
  else s.retryStarved

/-! ### Holders (R98, R99) -/

/-- A host leaves a capture's holder set. -/
def Capture.dropHolder (p : Port) (c : Capture) : Capture := { c with holders := c.holders.set p false }

/-- An ending session leaves every holder set, and a STARVED store tries again (R99). -/
def State.dropFromCaptures (s : State) (p : Port) : State :=
  { s with store := { s.store with sealedCaptures := s.store.sealedCaptures.map (Capture.dropHolder p) } }.retryStarved

/-! ### What waits for the store -/

/-- The oldest frame handed to the store, and the other events. Frames keep their order (R44). -/
def firstFrame : List CapEvent → Option (StampedFrame × List CapEvent)
  | [] => none
  | .frame f :: rest => some (f, rest)
  | e :: rest =>
    match firstFrame rest with
    | none => none
    | some (f, others) => some (f, e :: others)

/-- A trigger as it waits for the store. -/
structure WaitingTrigger where
  source : TrigSource
  tick : W32
  hc : W32
  deriving DecidableEq, Repr

/-- Where a trigger comes from (R87). Triggers of one origin are taken in the order handed (R73); the order among the origins is
open (R91). -/
inductive TrigOrigin where
  | detectorBank | host | xtrigIn
  deriving DecidableEq, Repr

/-- The origin of a trigger, by its source. -/
def TrigSource.origin : TrigSource → TrigOrigin
  | .onset _ => .detectorBank
  | .release _ => .detectorBank
  | .host _ => .host
  | .xtrigIn => .xtrigIn

/-- The oldest waiting trigger of an origin, between the events handed before it and those handed after it. -/
def splitTrigger (origin : TrigOrigin) : List CapEvent → Option (List CapEvent × WaitingTrigger × List CapEvent)
  | [] => none
  | .trigger source tick hc :: rest =>
    if source.origin = origin then some ([], { source, tick, hc }, rest)
    else
      match splitTrigger origin rest with
      | none => none
      | some (before, g, after) => some (.trigger source tick hc :: before, g, after)
  | e :: rest =>
    match splitTrigger origin rest with
    | none => none
    | some (before, g, after) => some (e :: before, g, after)

/-- Whether an event is the frame that made a close, or an earlier frame of the half-cycle that it closed: its hc is the one before
the close's (R47, R50). -/
def CapEvent.isFrameOfClose (hc : W32) : CapEvent → Bool
  | .frame f => f.hc + 1 == hc
  | .trigger _ _ _ => false
  | .config _ => false
  | .tokenFree => false

/-- Whether a trigger may be taken before the events handed before it: one of the Detector Bank not before the frame that made its
close (R44), any other in either order (R91). DEDUCED (log 27). -/
def WaitingTrigger.mayOvertake (g : WaitingTrigger) (before : List CapEvent) : Bool :=
  g.source.origin != .detectorBank || !before.any (CapEvent.isFrameOfClose g.hc)

/-- The trigger of an origin that the store may take next, and the other events: the oldest of the origin, since these keep their
order (R73), in either order with frames and with triggers of other origins (R91). -/
def firstTrigger (origin : TrigOrigin) (inbox : List CapEvent) : Option (WaitingTrigger × List CapEvent) :=
  match splitTrigger origin inbox with
  | none => none
  | some (before, g, after) => if g.mayOvertake before then some (g, before ++ after) else none

/-- The triggers that the store may take next, at most one of each origin, each with the other events. -/
def nextTriggers (inbox : List CapEvent) : List (WaitingTrigger × List CapEvent) :=
  [TrigOrigin.detectorBank, .host, .xtrigIn].filterMap fun origin => firstTrigger origin inbox

/-- The trigger taken next: the only one that may be, or one of several by a free value (R91, log 35); with the draw counted. -/
def State.drawTrigger (s : State) : Option (WaitingTrigger × List CapEvent × State) :=
  match nextTriggers s.store.inbox with
  | [] => none
  | [(g, rest)] => some (g, rest, s)
  | first :: second :: more =>
    let (g, rest) := (first :: second :: more).getD (Config.triggerTaken s.draws % (more.length + 2)) first
    some (g, rest, { s with draws := s.draws + 1 })

/-- The oldest committed S2 handed to the store (R85). -/
def firstConfig : List CapEvent → Option (CapCfg × List CapEvent)
  | [] => none
  | .config c :: rest => some (c, rest)
  | e :: rest =>
    match firstConfig rest with
    | none => none
    | some (c, others) => some (c, e :: others)

/-- Whether a report that the HOLD token is free waits, and the other events (R26). -/
def firstTokenFree : List CapEvent → Option (List CapEvent)
  | [] => none
  | .tokenFree :: rest => some rest
  | e :: rest =>
    match firstTokenFree rest with
    | none => none
    | some others => some (e :: others)

/-- The store's waiting events replaced. -/
def State.setCapInbox (s : State) (inbox : List CapEvent) : State := { s with store := { s.store with inbox := inbox } }

/-! ### Commands -/

/-- CAPTURE_FRAME (R86). With no frame handed there is nothing to take (log 3). -/
def execCaptureFrame (s : State) : Host.Outcome State Fault Refusal :=
  s.whenRunning fun s =>
    match firstFrame s.store.inbox with
    | none => s
    | some (f, rest) => (s.setCapInbox rest).captureFrame f

/-- CAPTURE_TRIGGER: a trigger, by the store state it finds (R87, R91). With none that may be taken there is nothing to take (log 3,
log 27). -/
def execCaptureTrigger (s : State) : Host.Outcome State Fault Refusal :=
  s.whenRunning fun s =>
    match s.drawTrigger with
    | none => s
    | some (g, rest, s) => (s.setCapInbox rest).takeTrigger g.source g.tick g.hc

/-- CAPTURE_CONFIG (R85, R104, R105). -/
def execCaptureConfig (s : State) : Host.Outcome State Fault Refusal :=
  s.whenRunning fun s =>
    match firstConfig s.store.inbox with
    | none => s
    | some (c, rest) => (s.setCapInbox rest).takeS2 c

/-- CAPTURE_TOKEN_FREE: a STARVED store tries again (R97). -/
def execCaptureTokenFree (s : State) : Host.Outcome State Fault Refusal :=
  s.whenRunning fun s =>
    match firstTokenFree s.store.inbox with
    | none => s
    | some rest => (s.setCapInbox rest).retryStarved

/-- Whether a change of XTRIG_IN to a level is an edge of the configured polarity (R92). -/
def matchesPolarity (s2 : CapCfg) (high : Bool) : Bool := (s2.xtrigIn == 1 && high) || (s2.xtrigIn == 2 && !high)

/-- An edge of XTRIG_IN (R92): a change from the kept level; of the configured polarity, it raises trigger $18. -/
def State.senseXtrig (s : State) (high : Bool) : State :=
  if s.store.xtrigLevel = high then s
  else
    let s := { s with store := { s.store with xtrigLevel := high } }
    if matchesPolarity s.store.s2 high then s.raiseTrigger .xtrigIn s.nowTick s.nowHc else s

/-- XTRIG_IN_EDGE: the pin takes a level. While RESET is held low the pin is not sensed (R92). -/
def execXtrigInEdge (high : Bool) (s : State) : Host.Outcome State Fault Refusal :=
  { s with pins := { s.pins with xtrigInHigh := high } }.whenRunning fun s => s.senseXtrig high

/-- XTRIG_OUT_PULSE_END: the line returns low when its millisecond is over (R92). -/
def execXtrigOutPulseEnd (s : State) : Host.Outcome State Fault Refusal :=
  s.whenRunning fun s =>
    match s.store.xtrigOut with
    | none => s
    | some due => if reached s.nowTick due then { s with store := { s.store with xtrigOut := none } } else s

end Sys2Proof.Machine
end

