-- ==== Sys2Proof/Machine/Energy.lean ====
section
/-! DEFINITION. The Energy Block (chapter 6): contributions, the creep gate, the integrity freeze, snapshots, the pulse engines, and
the changes of S3. -/

namespace Sys2Proof.Machine

/-- The sources of an accumulator with the codes of 7.1. -/
inductive EnergySource where
  | activeA | activeB | reactiveA | reactiveB | apparentA | apparentB | chargeA | time
  deriving DecidableEq, Repr

/-- A source code; the S3 in force always holds one from 0 to 7 (R108, log 15). -/
def EnergySource.ofCode (v : W16) : EnergySource :=
  if v = 0 then .activeA else if v = 1 then .activeB else if v = 2 then .reactiveA else if v = 3 then .reactiveB
  else if v = 4 then .apparentA else if v = 5 then .apparentB else if v = 6 then .chargeA else .time

/-- The directions of an accumulator with the codes of 7.1. -/
inductive EnergyDirection where
  | imported | exported | net | absolute
  deriving DecidableEq, Repr

def EnergyDirection.ofCode (v : W16) : EnergyDirection :=
  if v = 0 then .imported else if v = 1 then .exported else if v = 2 then .net else .absolute

/-- A source's average from a summary; 1 for every sample with TIME (R109). -/
def EnergySource.average (src : EnergySource) (x : Summary) : Int :=
  match src with
  | .activeA => x.pA | .activeB => x.pB | .reactiveA => x.qA | .reactiveB => x.qB
  | .apparentA => x.sA | .apparentB => x.sB | .chargeA => x.iaRms | .time => 1

/-- The half-cycle units that make one quantum (R109). -/
def EnergySource.divider (src : EnergySource) : Nat :=
  match src with
  | .activeA => 230400 | .activeB => 230400 | .reactiveA => 230400 | .reactiveB => 230400
  | .apparentA => 230400 | .apparentB => 230400 | .chargeA => 2304000 | .time => 6400

/-- What part of a contribution a direction counts (R109). -/
def EnergyDirection.counted (dir : EnergyDirection) (c : Int) : Int :=
  match dir with
  | .imported => if 0 ≤ c then c else 0
  | .exported => if 0 ≤ c then 0 else -c
  | .net => c
  | .absolute => if 0 ≤ c then c else -c

/-- The low test (R112): the magnitude of the average, before the direction, is below the creep level; never for TIME. -/
def lowHalfCycle (cfg : AccCfg) (x : Summary) : Bool :=
  let src := EnergySource.ofCode cfg.source
  src != .time && (src.average x).natAbs < cfg.creepLevel.toNat

/-! ### State updates -/

def State.setAcc (s : State) (a : AccId) (r : Accumulator) : State :=
  { s with energy := { s.energy with acc := s.energy.acc.set a r } }
def State.setEngine (s : State) (e : PulseId) (r : PulseEngine) : State :=
  { s with energy := { s.energy with engines := s.energy.engines.set e r } }

/-! ### Pulse engines (R120, R121) -/

/-- The largest pending count (R120). -/
abbrev pendingLimit : Nat := 15

/-- A pulse starts: the line goes high for the width in force (R121). -/
def startPulse (width : Nat) (now : W32) : PulsePhase := .high width (afterMs now width)

/-- What owing pulses does to an engine: the engine, how many pulses are lost, and whether a free value was drawn. An idle
engine starts one pulse at once; with more than 15 others owed at once, whether it starts before or after the owed pulses are
counted is open (`Config.pulseStartsFirst`, log 11). -/
def PulseEngine.owe (x : PulseEngine) (owed width : Nat) (now : W32) (draw : Nat) : PulseEngine × Nat × Bool :=
  let total := x.pending + owed
  match x.phase with
  | .idle =>
    if total = 0 then (x, 0, false)
    else if total ≤ pendingLimit then ({ x with pending := total - 1, phase := startPulse width now }, 0, false)
    else if Config.pulseStartsFirst draw then
      ({ x with pending := pendingLimit, phase := startPulse width now }, total - 1 - pendingLimit, true)
    else ({ x with pending := pendingLimit - 1, phase := startPulse width now }, total - pendingLimit, true)
  | _ => ({ x with pending := min pendingLimit total }, total - pendingLimit, false)

/-- The Attention Logic is told of a lost pulse: every open session is latched (R120, R154). -/
def State.latchPulseLost (s : State) : State := s.latchHosts (PerPort.all true) Latches.setPulseLost

/-- An accumulator hands an engine the magnitude of the quanta it moved (R120). -/
def State.feedEngine (s : State) (e : PulseId) (quanta : Nat) : State :=
  let cfg := s.energy.s3.pulse.get e
  let x := s.energy.engines.get e
  let k := cfg.k.toNat
  let fed := { x with residue := (x.residue + quanta) % k }
  let out := fed.owe ((x.residue + quanta) / k) cfg.width.toNat s.nowTick s.draws
  let engine := { out.1 with lost := satAdd limit16 out.1.lost out.2.1 }
  let s := (s.setEngine e engine)
  let s := if out.2.2 then { s with draws := s.draws + 1 } else s
  if out.2.1 = 0 then s else s.latchPulseLost

/-- The engines whose binding in force is an accumulator receive its quanta (R110). -/
def State.feedBound (s : State) (a : AccId) (quanta : Nat) : State :=
  allPulseEngines.foldl
    (fun s e => if boundAcc (s.energy.s3.pulse.get e).binding = some a then s.feedEngine e quanta else s) s

/-! ### Counting (R110, R111) -/

/-- A counted contribution through the residue: the accumulator, and the quanta that moved (R110). -/
def Accumulator.count (r : Accumulator) (counted : Int) (divider : Nat) (hc : W32) : Accumulator × Int :=
  let total := r.residue + counted
  let quanta := total.tdiv divider
  ({ r with
      residue := total.tmod divider
      value := r.value + BitVec.ofInt 48 quanta
      lastHc := if quanta = 0 then r.lastHc else hc }, quanta)

/-- A half-cycle counted for an accumulator (R109, R110). -/
def State.countHalfCycle (s : State) (a : AccId) (x : Summary) : State :=
  let cfg := s.energy.s3.acc.get a
  let src := EnergySource.ofCode cfg.source
  let counted := (EnergyDirection.ofCode cfg.direction).counted (src.average x * x.n)
  let out := (s.energy.acc.get a).count counted src.divider x.hc
  let s := s.setAcc a out.1
  if out.2 = 0 then s else s.feedBound a out.2.natAbs

/-- One accumulator's work at a close (R111, R112, R113, R114). -/
def State.workAccumulator (close : HandedClose) (s : State) (a : AccId) : State :=
  let cfg := s.energy.s3.acc.get a
  let r := s.energy.acc.get a
  let low := lowHalfCycle cfg close.summary
  match r.gate with
  | .fault => s
  | .running =>
    if !low then (s.setAcc a { r with creepRun := 0 }).countHalfCycle a close.summary
    else if r.creepRun + 1 < cfg.creepCount.toNat then
      (s.setAcc a { r with creepRun := r.creepRun + 1 }).countHalfCycle a close.summary
    else
      (s.setAcc a { r with gate := .creep, creepRun := 0, residue := 0 }).hand .energyBlock close.tick close.summary.hc
        (.creepChange a .creep)
  | .creep =>
    if low then s
    else
      ((s.setAcc a { r with gate := .running, creepRun := 0 }).hand .energyBlock close.tick close.summary.hc
        (.creepChange a .running)).countHalfCycle a close.summary

/-! ### Snapshots (R118) -/

/-- The four values as they stand. -/
def EnergyBlock.values (en : EnergyBlock) : PerAcc W48 := en.acc.mapWith fun _ r => r.value

/-- The pending snapshot completes at a close (R118). -/
def State.completeSnapshot (s : State) (close : HandedClose) : State :=
  match s.energy.pendingSnapshot with
  | none => s
  | some p =>
    let values := s.energy.values
    let record : SnapshotRecord :=
      { id := p.id, tick := close.tick, hc := close.summary.hc, requesters := p.requesters, values }
    let s := { s with energy := { s.energy with pendingSnapshot := none, lastSnapshot := record } }
    let s := s.hand .energyBlock close.tick close.summary.hc (.snapshot p.id p.requesters values)
    s.latchHosts p.requesters Latches.setSnapshotDone

/-- The Energy Block takes a close (R111). -/
def State.takeEnergyClose (s : State) (close : HandedClose) : State :=
  let s := allAccumulators.foldl (State.workAccumulator close) s
  let s := s.completeSnapshot close
  { s with energy := { s.energy with lastCloseHc := close.summary.hc } }

/-! ### Changes of S3 and the integrity fault (R108, R114, R123, R124) -/

/-- A redefined accumulator is zeroed, with every session's baseline for it (R123). Its last update hc is the hc counter as it
stands when the Energy Block takes the commit (log 9). -/
def State.zeroAccumulator (s : State) (a : AccId) : State :=
  (s.setAcc a { value := 0, residue := 0, gate := .running, creepRun := 0, lastHc := s.nowHc }).onSessions
    fun _ x => { x with baselines := x.baselines.set a 0 }

/-- Whether an engine is cleared by a committed S3: its binding or K differs (R124), or its accumulator, before or after the
commit, is redefined (R123). -/
def engineCleared (old new : EnergyCfg) (e : PulseId) : Bool :=
  let o := old.pulse.get e
  let n := new.pulse.get e
  let zeroed := fun (b : W16) => match boundAcc b with | none => false | some a => redefined old new a
  o.binding != n.binding || o.k != n.k || zeroed o.binding || zeroed n.binding

/-- An engine cleared: pulse residue and pending 0; a pulse on the line runs out (R123, R124). -/
def PulseEngine.cleared (x : PulseEngine) : PulseEngine := { x with residue := 0, pending := 0 }

/-- A gate freed from FAULT (R114). -/
def Accumulator.faultCleared (r : Accumulator) : Accumulator :=
  if r.gate = .fault then { r with gate := .running, creepRun := 0 } else r

/-- A committed S3 with the fault clear, taken by the Energy Block (R108). -/
def State.takeS3 (s : State) (new : EnergyCfg) : State :=
  let old := s.energy.s3
  let s := allAccumulators.foldl (fun s a => if redefined old new a then s.zeroAccumulator a else s) s
  let engines := s.energy.engines.mapWith fun e x => if engineCleared old new e then x.cleared else x
  { s with energy := { s.energy with engines, s3 := new, acc := s.energy.acc.mapWith fun _ r => r.faultCleared } }

/-- The integrity fault taken by the Energy Block (R114). -/
def State.freezeEnergy (s : State) : State :=
  { s with energy := { s.energy with acc := s.energy.acc.mapWith fun _ r => { r with gate := .fault, creepRun := 0 } } }

/-! ### Commands -/

/-- ENERGY_CLOSE: the oldest summary handed to the block (R111). With none handed there is nothing to take (log 3). -/
def execEnergyClose (s : State) : Host.Outcome State Fault Refusal :=
  s.whenRunning fun s =>
    match s.energy.closes with
    | [] => s
    | close :: rest => { s with energy := { s.energy with closes := rest } }.takeEnergyClose close

/-- ENERGY_CONFIG: the next event of the Configuration Controller, if it is a committed S3 (R108). -/
def execEnergyConfig (s : State) : Host.Outcome State Fault Refusal :=
  s.whenRunning fun s =>
    match s.energy.handed with
    | .config s3 :: rest => { s with energy := { s.energy with handed := rest } }.takeS3 s3
    | _ => s

/-- ENERGY_FAULT: the next event of the Configuration Controller, if it is the integrity fault (R114). -/
def execEnergyFault (s : State) : Host.Outcome State Fault Refusal :=
  s.whenRunning fun s =>
    match s.energy.handed with
    | .fault :: rest => { s with energy := { s.energy with handed := rest } }.freezeEnergy
    | _ => s

/-- PULSE_HIGH_END: when HIGH has lasted the phase width the line goes low and the engine enters GAP (R121). -/
def execPulseHighEnd (e : PulseId) (s : State) : Host.Outcome State Fault Refusal :=
  s.whenRunning fun s =>
    let x := s.energy.engines.get e
    match x.phase with
    | .high width due =>
      if reached s.nowTick due then s.setEngine e { x with phase := .gap width (afterMs s.nowTick width) } else s
    | _ => s

/-- The end of a gap: IDLE, or the next pending pulse at once (R121). -/
def PulseEngine.afterGap (x : PulseEngine) (width : Nat) (now : W32) : PulseEngine :=
  if x.pending = 0 then { x with phase := .idle } else { x with pending := x.pending - 1, phase := startPulse width now }

/-- PULSE_GAP_END: when GAP has lasted the phase width the engine enters IDLE and starts the next pending pulse (R121). -/
def execPulseGapEnd (e : PulseId) (s : State) : Host.Outcome State Fault Refusal :=
  s.whenRunning fun s =>
    let x := s.energy.engines.get e
    match x.phase with
    | .gap _ due =>
      if reached s.nowTick due then s.setEngine e (x.afterGap (s.energy.s3.pulse.get e).width.toNat s.nowTick) else s
    | _ => s

end Sys2Proof.Machine
end

