-- ==== Sys2Proof/Machine/Operands.lean ====
section
/-! DEFINITION. Every operand form: the request codes with the payload each takes (10.5), the reading of a request from a frame's
code and payload, the frame that a request makes, and the arguments' ranges (check 7). -/

namespace Sys2Proof.Machine

/-- The request codes of 10.5, by name. -/
inductive ReqCode where
  | openSession | closeSession | portStatus | setAttention | attentionStatus
  | setSubscription | setRetention | readEntries | ackEntries | rewind | journalStatus | appendNote
  | captureNow | captureList | readFrames | releaseCapture | storeStatus
  | readEnergy | markBaseline | snapshot | readSnapshot | pulseStatus
  | leaseTake | leaseRelease | leaseStatus | stageWrite | stageRead | configRead | commit | discard | clearTally | restart
  | defineReadSet | readSet | detectorStatus
  deriving DecidableEq, Repr

def ReqCode.all : List ReqCode :=
  [.openSession, .closeSession, .portStatus, .setAttention, .attentionStatus, .setSubscription, .setRetention, .readEntries,
   .ackEntries, .rewind, .journalStatus, .appendNote, .captureNow, .captureList, .readFrames, .releaseCapture, .storeStatus,
   .readEnergy, .markBaseline, .snapshot, .readSnapshot, .pulseStatus, .leaseTake, .leaseRelease, .leaseStatus, .stageWrite,
   .stageRead, .configRead, .commit, .discard, .clearTally, .restart, .defineReadSet, .readSet, .detectorStatus]

/-- The code byte of a request (10.5). -/
def ReqCode.byte : ReqCode → Byte
  | .openSession => 0x01 | .closeSession => 0x02 | .portStatus => 0x03 | .setAttention => 0x04 | .attentionStatus => 0x05
  | .setSubscription => 0x10 | .setRetention => 0x11 | .readEntries => 0x12 | .ackEntries => 0x13 | .rewind => 0x14
  | .journalStatus => 0x15 | .appendNote => 0x16
  | .captureNow => 0x20 | .captureList => 0x21 | .readFrames => 0x22 | .releaseCapture => 0x23 | .storeStatus => 0x24
  | .readEnergy => 0x30 | .markBaseline => 0x31 | .snapshot => 0x32 | .readSnapshot => 0x33 | .pulseStatus => 0x34
  | .leaseTake => 0x40 | .leaseRelease => 0x41 | .leaseStatus => 0x42 | .stageWrite => 0x43 | .stageRead => 0x44
  | .configRead => 0x45 | .commit => 0x46 | .discard => 0x47 | .clearTally => 0x48 | .restart => 0x49
  | .defineReadSet => 0x50 | .readSet => 0x51 | .detectorStatus => 0x52

/-- The request that a code byte names, if it is one of the codes (check 3). -/
def ReqCode.ofByte (b : Byte) : Option ReqCode := ReqCode.all.find? fun c => c.byte == b

/-- Check 5 asks for an open session, but for OPEN_SESSION and PORT_STATUS (R175). -/
def ReqCode.needsSession : ReqCode → Bool
  | .openSession => false | .portStatus => false | _ => true

/-- The payload length a code takes (check 4): DEFINE_READ_SET takes 0 to 12 bytes, the others one length (R175). -/
def ReqCode.lengthOk (c : ReqCode) (n : Nat) : Bool :=
  match c with
  | .openSession => n == 2 | .closeSession => n == 0 | .portStatus => n == 1 | .setAttention => n == 2
  | .attentionStatus => n == 0
  | .setSubscription => n == 1 | .setRetention => n == 1 | .readEntries => n == 1 | .ackEntries => n == 4 | .rewind => n == 0
  | .journalStatus => n == 0 | .appendNote => n == 16
  | .captureNow => n == 0 | .captureList => n == 0 | .readFrames => n == 6 | .releaseCapture => n == 2 | .storeStatus => n == 2
  | .readEnergy => n == 0 | .markBaseline => n == 1 | .snapshot => n == 0 | .readSnapshot => n == 0 | .pulseStatus => n == 0
  | .leaseTake => n == 2 | .leaseRelease => n == 0 | .leaseStatus => n == 0 | .stageWrite => n == 5 | .stageRead => n == 3
  | .configRead => n == 3 | .commit => n == 0 | .discard => n == 0 | .clearTally => n == 1 | .restart => n == 2
  | .defineReadSet => n ≤ 12 | .readSet => n == 0 | .detectorStatus => n == 0

/-- Two and four bytes as a word, most significant first. -/
def word16 (hi lo : Byte) : W16 := hi ++ lo
def word32 (b3 b2 b1 b0 : Byte) : W32 := b3 ++ b2 ++ b1 ++ b0

/-- The request that a code and a payload spell (10.5); none where the payload is not of the length the code takes. -/
def ReqCode.read (c : ReqCode) (payload : List Byte) : Option Request :=
  match c, payload with
  | .openSession, [start, retention] => some (.openSession start retention)
  | .closeSession, [] => some .closeSession
  | .portStatus, [clear] => some (.portStatus clear)
  | .setAttention, [mask, watermark] => some (.setAttention mask watermark)
  | .attentionStatus, [] => some .attentionStatus
  | .setSubscription, [mask] => some (.setSubscription mask)
  | .setRetention, [retention] => some (.setRetention retention)
  | .readEntries, [x] => some (.readEntries x)
  | .ackEntries, [a, b, c, d] => some (.ackEntries (word32 a b c d))
  | .rewind, [] => some .rewind
  | .journalStatus, [] => some .journalStatus
  | .appendNote, data => if data.length = 16 then some (.appendNote data) else none
  | .captureNow, [] => some .captureNow
  | .captureList, [] => some .captureList
  | .readFrames, [a, b, part, c, d, count] => some (.readFrames (word16 a b) part (word16 c d) count)
  | .releaseCapture, [a, b] => some (.releaseCapture (word16 a b))
  | .storeStatus, [a, b] => some (.storeStatus (word16 a b))
  | .readEnergy, [] => some .readEnergy
  | .markBaseline, [mask] => some (.markBaseline mask)
  | .snapshot, [] => some .snapshot
  | .readSnapshot, [] => some .readSnapshot
  | .pulseStatus, [] => some .pulseStatus
  | .leaseTake, [seconds, wait] => some (.leaseTake seconds wait)
  | .leaseRelease, [] => some .leaseRelease
  | .leaseStatus, [] => some .leaseStatus
  | .stageWrite, [sec, record, field, a, b] => some (.stageWrite sec record field (word16 a b))
  | .stageRead, [sec, record, field] => some (.stageRead sec record field)
  | .configRead, [sec, record, field] => some (.configRead sec record field)
  | .commit, [] => some .commit
  | .discard, [] => some .discard
  | .clearTally, [mask] => some (.clearTally mask)
  | .restart, [a, b] => some (.restart (word16 a b))
  | .defineReadSet, codes => if codes.length ≤ 12 then some (.defineReadSet codes) else none
  | .readSet, [] => some .readSet
  | .detectorStatus, [] => some .detectorStatus
  | _, _ => none

/-- The code of a request. -/
def reqCodeOf : Request → ReqCode
  | .openSession .. => .openSession | .closeSession => .closeSession | .portStatus .. => .portStatus
  | .setAttention .. => .setAttention | .attentionStatus => .attentionStatus | .setSubscription .. => .setSubscription
  | .setRetention .. => .setRetention | .readEntries .. => .readEntries | .ackEntries .. => .ackEntries | .rewind => .rewind
  | .journalStatus => .journalStatus | .appendNote .. => .appendNote | .captureNow => .captureNow
  | .captureList => .captureList | .readFrames .. => .readFrames | .releaseCapture .. => .releaseCapture
  | .storeStatus .. => .storeStatus | .readEnergy => .readEnergy | .markBaseline .. => .markBaseline | .snapshot => .snapshot
  | .readSnapshot => .readSnapshot | .pulseStatus => .pulseStatus | .leaseTake .. => .leaseTake
  | .leaseRelease => .leaseRelease | .leaseStatus => .leaseStatus | .stageWrite .. => .stageWrite
  | .stageRead .. => .stageRead | .configRead .. => .configRead | .commit => .commit | .discard => .discard
  | .clearTally .. => .clearTally | .restart .. => .restart | .defineReadSet .. => .defineReadSet | .readSet => .readSet
  | .detectorStatus => .detectorStatus

/-- The payload that a request puts into its frame (10.5). -/
def reqPayload : Request → List Byte
  | .openSession start retention => [start, retention]
  | .portStatus clear => [clear]
  | .setAttention mask watermark => [mask, watermark]
  | .setSubscription mask => [mask]
  | .setRetention retention => [retention]
  | .readEntries x => [x]
  | .ackEntries seq => be32 seq
  | .appendNote data => data
  | .readFrames id part offset count => be16 id ++ [part] ++ be16 offset ++ [count]
  | .releaseCapture id => be16 id
  | .storeStatus id => be16 id
  | .markBaseline mask => [mask]
  | .leaseTake seconds wait => [seconds, wait]
  | .stageWrite sec record field value => [sec, record, field] ++ be16 value
  | .stageRead sec record field => [sec, record, field]
  | .configRead sec record field => [sec, record, field]
  | .clearTally mask => [mask]
  | .restart generation => be16 generation
  | .defineReadSet codes => codes
  | _ => []

/-- The 8-bit sum of a list of bytes (R161, R181). -/
def byteSum : List Byte → Byte
  | [] => 0
  | b :: rest => b + byteSum rest

/-- The check byte that makes the sum $FF (R181). -/
def checkByte (bytes : List Byte) : Byte := 0xFF - byteSum bytes

/-- A frame's length byte. -/
def RequestFrame.length (f : RequestFrame) : Byte := byteOf f.payload.length

/-- The sum that a good frame brings to $FF (R161). -/
def RequestFrame.sum (f : RequestFrame) : Byte := byteSum (f.tag :: f.code :: f.length :: (f.payload ++ [f.check]))

/-- The frame that carries a request with a tag, its check byte good. -/
def frameOf (tag : Byte) (r : Request) : RequestFrame :=
  let payload := reqPayload r
  { tag, code := (reqCodeOf r).byte, payload
    check := checkByte (tag :: (reqCodeOf r).byte :: byteOf payload.length :: payload) }

/-! ### Frames in receipt (R163, R168) -/

/-- The lead of a request frame. -/
def requestLead : Byte := 0x55

/-- What one more byte makes of a frame in receipt. -/
inductive Receipt where
  /-- the frame goes on -/
  | more
  /-- a length byte above 60 -/
  | tooLong
  /-- the check byte has come -/
  | complete (f : RequestFrame)
  deriving DecidableEq, Repr

/-- A frame in receipt, its lead first: judged on its length byte as that comes, and complete with its check byte. -/
def readReceipt : List Byte → Receipt
  | [_, _, _, len] => if 60 < len.toNat then .tooLong else .more
  | _ :: tag :: code :: len :: rest =>
    if rest.length = len.toNat + 1 then
      .complete { tag, code, payload := rest.take len.toNat, check := rest.getD len.toNat 0 }
    else .more
  | _ => .more

/-! ### Argument ranges (check 7) and flags in one byte -/

/-- A flag byte is 0 or 1. -/
def isFlag (b : Byte) : Bool := b.toNat ≤ 1

/-- The maximum count of a READ_ENTRIES byte: bits 0 to 3 (10.5). -/
def readCount (b : Byte) : Nat := (b &&& 0x0F).toNat
/-- The auto-ack flag of a READ_ENTRIES byte: bit 7. -/
def readAutoAck (b : Byte) : Bool := b.getLsbD 7
/-- A READ_ENTRIES byte in range: a count of 1 to 8, and bits 4 to 6 clear (R28, 10.5). -/
def readByteOk (b : Byte) : Bool := 1 ≤ readCount b && readCount b ≤ 8 && b &&& 0x70 == 0

end Sys2Proof.Machine
end

