-- ==== Sys2Proof/Machine/Wire.lean ====
section
/-! DEFINITION. The layouts of 10.4 and 10.5: named values as codes, journal entries, response frames, and the reply of a block. -/

namespace Sys2Proof.Machine

/-! ### Codes for named values (R182) -/

def optPortCode : Option Port → Byte
  | none => 0xFF
  | some p => portCode p
def detCode (d : DetId) : Byte := byteOf d.number
def accCode (a : AccId) : Byte := byteOf a.number
def EndReason.code : EndReason → Byte | .normal => 0 | .cutByConfig => 1
def MissReason.code : MissReason → Byte | .noSlot => 0 | .disarmed => 1
def Gate.code : Gate → Byte | .running => 0 | .creep => 1 | .fault => 2
def LeaseEventKind.code : LeaseEventKind → Byte | .granted => 0 | .released => 1 | .expired => 2 | .forfeited => 3
def SessionEventKind.code : SessionEventKind → Byte | .opened => 0 | .closed => 1 | .expired => 2 | .portReset => 3
def LineEventKind.code : LineEventKind → Byte | .lost => 0 | .tracking => 1
def RestartCause.code : RestartCause → Byte | .powerOn => 0 | .pin => 1 | .request => 2
def DetState.code : DetState → Byte | .idle => 0 | .quiet => 1 | .onset => 2 | .active => 3 | .release => 4
def LineState.code : LineState → Byte | .acquiring => 0 | .tracking => 1 | .lost => 2
def Polarity.code : Polarity → Byte | .noSign => 0 | .pos => 1 | .neg => 2
def SlotState.code : SlotState → Byte | .free => 0 | .live => 1 | .post => 2 | .sealed => 3
def StoreMode.code : StoreMode → Byte | .disarmed => 0 | .live _ _ => 1 | .post _ => 2 | .starved => 3
def PulsePhase.code : PulsePhase → Byte | .idle => 0 | .high _ _ => 1 | .gap _ _ => 2
def FailReason.code : FailReason → Byte | .range => 0 | .levelOrder => 1 | .holdInUse => 2 | .lock => 3
def CapFlags.byte (f : CapFlags) : Byte := bitAt 0 f.shortPre ||| bitAt 1 f.chained ||| bitAt 2 f.chainCut
/-- Trigger source codes (5.3). -/
def TrigSource.code : TrigSource → Byte
  | .onset d => detCode d
  | .release d => 0x08 + detCode d
  | .host p => 0x10 + portCode p
  | .xtrigIn => 0x18

/-- Slot numbers in part order in four bytes, $FF beyond the part count (R5). -/
def slotBytes (l : List SlotId) : List Byte :=
  ((l.map fun (i : SlotId) => byteOf i.val) ++ List.replicate 4 (0xFF : Byte)).take 4

/-! ### Entries (R183) -/

/-- The kind code: the class in the high four bits. -/
def EntryBody.kindCode : EntryBody → Byte
  | .episodeOpen .. => 0x00 | .episodeClose .. => 0x01
  | .captureSealed .. => 0x10 | .captureMissed .. => 0x11 | .captureReclaimed .. => 0x12
  | .snapshot .. => 0x20 | .creepChange .. => 0x21
  | .configCommit .. => 0x30 | .leaseEvent .. => 0x31 | .tallyCleared .. => 0x32
  | .sessionEvent .. => 0x40 | .lineEvent .. => 0x50 | .note .. => 0x60
  | .restart .. => 0x70 | .gap .. => 0x71 | .integrityFault .. => 0x72

/-- Four 48-bit values in order. -/
def accBytes (v : PerAcc W48) : List Byte := be48 v.e0 ++ be48 v.e1 ++ be48 v.e2 ++ be48 v.e3

/-- A kind's payload, fields in the order of R4 to R9. -/
def EntryBody.payload : EntryBody → List Byte
  | .episodeOpen d n h x => [detCode d] ++ be16 n ++ be32 h ++ be16n x
  | .episodeClose d n h dur x r => [detCode d] ++ be16 n ++ be32 h ++ be24n dur ++ be16n x ++ [r.code]
  | .captureSealed id slots trig first pre flags extra =>
    be16 id ++ [byteOf slots.length] ++ slotBytes slots ++ [byteOf trig, first.code] ++ be16n pre ++ [flags.byte, byteOf extra]
  | .captureMissed src r => [src.code, r.code]
  | .captureReclaimed id lost => be16 id ++ [HostSet.toByte lost]
  | .snapshot id req v => be16 id ++ [HostSet.toByte req] ++ accBytes v
  | .creepChange a g => [accCode a, g.code]
  | .configCommit g h secs accs => be16 g ++ [portCode h, secs, accs]
  | .leaseEvent e h => [e.code, portCode h]
  | .tallyCleared m h => [m, portCode h]
  | .sessionEvent h e => [portCode h, e.code]
  | .lineEvent e => [e.code]
  | .note h data => portCode h :: data
  | .restart c e => [c.code] ++ be16 e
  | .gap counts first last =>
    be16n counts.disturbance ++ be16n counts.capture ++ be16n counts.energy ++ be16n counts.config ++ be16n counts.session
      ++ be16n counts.line ++ be16n counts.note ++ be16n counts.system ++ be32 first ++ be32 last
  | .integrityFault g => be16 g

/-- An entry's wire size: 14 bytes of header and the payload (R29, R183). -/
def Entry.wireSize (e : Entry) : Nat := 14 + e.body.payload.length

/-- An entry on the wire (R183). -/
def Entry.bytes (e : Entry) : List Byte :=
  byteOf e.wireSize :: be32 e.seq ++ [e.body.kindCode] ++ be32 e.tick ++ be32 e.hc ++ e.body.payload

/-! ### Replies and response frames (R181) -/

/-- The status codes of 10.1. -/
inductive Status where
  | ok | checkFail | noSession | badCode | badLength | badValue | notLeaseholder | leaseHeld | queued | holdTaken | notPermitted
  | badAck | notHolder | notSealed | gone | invalid | locked | restarting | alreadyOpen | notStored
  deriving DecidableEq, Repr

def Status.code : Status → Byte
  | .ok => 0x00 | .checkFail => 0x01 | .noSession => 0x02 | .badCode => 0x03 | .badLength => 0x04 | .badValue => 0x05
  | .notLeaseholder => 0x06 | .leaseHeld => 0x07 | .queued => 0x08 | .holdTaken => 0x09 | .notPermitted => 0x0A
  | .badAck => 0x0B | .notHolder => 0x0C | .notSealed => 0x0D | .gone => 0x0E | .invalid => 0x0F | .locked => 0x10
  | .restarting => 0x11 | .alreadyOpen => 0x12 | .notStored => 0x13

/-- What a block answers: a status and a payload, and whether it is the OK that a RESTART waits to see delivered. -/
structure Reply where
  status : Status
  payload : List Byte
  restartOk : Bool
  deriving DecidableEq, Repr

def Reply.ok (payload : List Byte) : Reply := { status := .ok, payload, restartOk := false }
/-- A refusal without payload (R177). -/
def Reply.refuse (status : Status) : Reply := { status, payload := [], restartOk := false }
/-- A refusal that carries a payload (R177). -/
def Reply.carry (status : Status) (payload : List Byte) : Reply := { status, payload, restartOk := false }

/-- The lead of a response frame. -/
def responseLead : Byte := 0xAA

/-- The response frame of a reply to a tag (R181). -/
def responseOf (tag : Byte) (r : Reply) : Response :=
  let body := tag :: r.status.code :: byteOf r.payload.length :: r.payload
  { bytes := responseLead :: body ++ [checkByte body], restartOk := r.restartOk }

/-- A frame of a capture: U, IA, IB (R184). -/
def Frame.bytes (f : Frame) : List Byte := be16 f.u ++ be16 f.ia ++ be16 f.ib

/-- A sequence number, or 0 for an entry that went to the loss tally (R177). -/
def seqOrZero : Option W32 → W32
  | none => 0
  | some x => x

end Sys2Proof.Machine
end

