-- ==== Sys2Proof/Machine/Readers.lean ====
section
/-! DEFINITION. The Reader state (chapter 2) and the attention requests (chapter 8): opening a reader, reading, acknowledging,
rewinding, subscription, retention, notes and journal status; and the command by which the journal takes an append. -/

namespace Sys2Proof.Machine

/-- A request of an open session; the general checks have seen to it that there is one (check 5). -/
def State.withSession (s : State) (p : Port) (f : Session → State × Reply) : State × Reply :=
  match s.session p with
  | none => (s, Reply.refuse .noSession)
  | some x => f x

/-- A session's idle deadline from a frame that becomes complete now, by the committed idle limit (R174). -/
def State.deadlineFrom (s : State) (p : Port) : Option W32 :=
  let limit := (s.config.committed.host.get p).idleLimit.toNat
  if limit = 0 then none else some (afterMs s.nowTick (1000 * limit))

/-- The committed configuration permits HOLD on a port (R35). -/
def State.permitsHold (s : State) (p : Port) : Bool := (s.config.committed.host.get p).holdPermit == 1

/-- Another port's session holds the token. -/
def State.holdTaken (s : State) (p : Port) : Bool := s.token != none && s.token != some p

/-- The refusal of a request for HOLD, if any: the permit first, then the token (R35). -/
def State.holdRefusal (s : State) (p : Port) : Option Status :=
  if !s.permitsHold p then some .notPermitted else if s.holdTaken p then some .holdTaken else none

/-! ### Sessions open (R25, R172) -/

/-- A new session's record (R25, R115, R159, R172, R178). -/
def Session.fresh (cursor : W32) (deadline : Option W32) : Session :=
  { mask := systemMask, cursor, ackPoint := cursor, overrunCount := 0, latches := Latches.none, attnMask := 0, watermark := 1
    baselines := PerAcc.all 0, readSet := [], idleDeadline := deadline }

/-- A session opened, after its checks (R172): the record, with the idle deadline that the completion of the frame gave (R174), then
SESSION_EVENT OPENED. The journal takes what waits before the record is made, so that no older append comes between (log 4). -/
def State.openSession (s : State) (p : Port) (deadline : Option W32) (fromOldest hold : Bool) : State × Reply :=
  let s := s.settle
  let next := s.journal.nextSeq
  let cursor := if fromOldest then s.journal.oldestSeq else next
  let s := s.setSession p (some (Session.fresh cursor deadline))
  let s := if hold then { s with token := some p } else s
  let out := s.appendNow (.sessionEvent p .opened)
  (out.1, Reply.ok (be16 s.journal.epoch ++ be16 s.config.generation ++ be32 next ++ be32 cursor ++ [flagByte hold]))

/-- OPEN_SESSION (R25, R172). -/
def reqOpenSession (p : Port) (deadline : Option W32) (start retention : Byte) (s : State) : State × Reply :=
  if !isFlag start || !isFlag retention then (s, Reply.refuse .badValue)
  else if (s.session p).isSome then (s, Reply.refuse .alreadyOpen)
  else
    match (if retention = 1 then s.holdRefusal p else none) with
    | some st => (s, Reply.refuse st)
    | none => s.openSession p deadline (start == 1) (retention == 1)

/-! ### Reading (R28 to R31) -/

/-- The bytes a READ_ENTRIES response has for entries (R29). -/
abbrev entryBytesLimit : Nat := 122

/-- The walk (R28, R29): the entries delivered, and the sequence number of the entry for which there was no room; none when
the walk reaches `next_seq`. -/
def walk (mask : Byte) (max : Nat) : Nat → Nat → List Entry → List Entry × Option W32
  | _, _, [] => ([], none)
  | count, bytes, e :: rest =>
    if !maskHas mask e.body.cls then walk mask max count bytes rest
    else if count < max ∧ bytes + e.wireSize ≤ entryBytesLimit then
      let r := walk mask max (count + 1) (bytes + e.wireSize) rest
      (e :: r.1, r.2)
    else ([], some e.seq)

/-- The stored entries at or after a cursor. -/
def Journal.fromCursor (j : Journal) (cursor : W32) : List Entry :=
  j.entries.dropWhile fun e => !e.atOrAfter j.nextSeq cursor

/-- A read carried out for a session: the session after it, and the entries delivered (R28, R30, R31). -/
def Session.read (x : Session) (j : Journal) (max : Nat) (auto : Bool) : Session × List Entry :=
  let r := walk x.mask max 0 0 (j.fromCursor x.cursor)
  let cursor := match r.2 with | none => j.nextSeq | some seq => seq
  ({ x with cursor, ackPoint := if auto then cursor else x.ackPoint, latches := x.latches.clearOverrun }, r.1)

/-- READ_ENTRIES (R28 to R31, R183). -/
def reqReadEntries (p : Port) (b : Byte) (s : State) : State × Reply :=
  s.withSession p fun x =>
    if !readByteOk b then (s, Reply.refuse .badValue)
    else
      let out := x.read s.journal (readCount b) (readAutoAck b)
      let status := bitAt 0 x.latches.overrun ||| bitAt 1 (out.1.deliverableCount s.journal != 0)
      (s.setSession p (some out.1), Reply.ok (status :: byteOf out.2.length :: out.2.flatMap Entry.bytes))

/-! ### Acknowledging and rewinding (R32, R33) -/

/-- ACK_ENTRIES (R32). -/
def reqAckEntries (p : Port) (seq : W32) (s : State) : State × Reply :=
  s.withSession p fun x =>
    let next := s.journal.nextSeq
    if seq = 0 then (s, Reply.refuse .badValue)
    else if atOrBefore next x.cursor seq then (s, Reply.refuse .badAck)
    else if atOrBefore next (seqSucc seq) x.ackPoint then (s, Reply.ok (be32 x.ackPoint))
    else (s.setSession p (some { x with ackPoint := seqSucc seq }), Reply.ok (be32 (seqSucc seq)))

/-- REWIND (R33). -/
def reqRewind (p : Port) (s : State) : State × Reply :=
  s.withSession p fun x => (s.setSession p (some { x with cursor := x.ackPoint }), Reply.ok (be32 x.ackPoint))

/-! ### Subscription and retention (R34 to R36) -/

/-- SET_SUBSCRIPTION (R34): the ack point moves to the cursor, then the mask is installed with SYSTEM forced on. -/
def reqSetSubscription (p : Port) (mask : Byte) (s : State) : State × Reply :=
  s.withSession p fun x =>
    let mask := mask ||| systemMask
    (s.setSession p (some { x with ackPoint := x.cursor, mask }), Reply.ok [mask])

/-- The HOLD token becomes free, and the Capture Store is told (R26). -/
def State.freeToken (s : State) : State :=
  { s with token := none, store := { s.store with inbox := s.store.inbox ++ [CapEvent.tokenFree] } }

/-- SET_RETENTION (R35, R36). -/
def reqSetRetention (p : Port) (retention : Byte) (s : State) : State × Reply :=
  s.withSession p fun _ =>
    if !isFlag retention then (s, Reply.refuse .badValue)
    else if retention = 1 then
      match s.holdRefusal p with
      | some st => (s, Reply.refuse st)
      | none => ({ s with token := some p }, Reply.ok [])
    else if s.inHold p then (s.freeToken, Reply.ok [])
    else (s, Reply.ok [])

/-! ### Notes and status (R40, R41) -/

/-- APPEND_NOTE (R40). -/
def reqAppendNote (p : Port) (data : List Byte) (s : State) : State × Reply :=
  match s.appendNow (.note p data) with
  | (s, some seq) => (s, Reply.ok (be32 seq))
  | (s, none) => (s, Reply.refuse .notStored)

/-- JOURNAL_STATUS (R41, R182). -/
def reqJournalStatus (p : Port) (s : State) : State × Reply :=
  s.withSession p fun x =>
    let j := s.journal
    let c := j.tally.counts
    (s, Reply.ok (be16n j.entries.length ++ be32 j.oldestSeq ++ be32 j.nextSeq ++ be16 j.epoch
      ++ be16n c.disturbance ++ be16n c.capture ++ be16n c.energy ++ be16n c.config ++ be16n c.session ++ be16n c.line
      ++ be16n c.note ++ be16n c.system ++ be32 j.tally.first ++ be32 j.tally.last ++ [optPortCode s.token]
      ++ be32 x.cursor ++ be32 x.ackPoint ++ [x.mask, flagByte (s.inHold p)] ++ be16n x.overrunCount
      ++ be16n (x.deliverableCount j)))

/-! ### Attention (R155, R156) -/

/-- SET_ATTENTION (R155). The reply carries the level of the line after the change. -/
def reqSetAttention (p : Port) (mask watermark : Byte) (s : State) : State × Reply :=
  s.withSession p fun x =>
    if watermark = 0 then (s, Reply.refuse .badValue)
    else
      let s := s.setSession p (some { x with attnMask := mask, watermark := watermark.toNat })
      (s, Reply.ok [mask, watermark, flagByte (!s.lineLow p)])

/-- ATTENTION_STATUS (R156): the cause set is the one before the clearing. -/
def reqAttentionStatus (p : Port) (s : State) : State × Reply :=
  s.withSession p fun x =>
    (s.setSession p (some { x with latches := x.latches.clearReported }),
      Reply.ok ([s.causeSet p x, x.attnMask, byteOf x.watermark] ++ be16n (x.deliverableCount s.journal)))

/-! ### The journal takes an append -/

/-- JOURNAL_APPEND: the oldest append that a block has handed to the journal, taken whole (R12 to R19). Which block's comes
next is the sender's choice, as R12 leaves it; with none waiting there is nothing to take (log 3, 4). -/
def execJournalAppend (source : Source) (s : State) : Host.Outcome State Fault Refusal :=
  s.whenRunning fun s =>
    match firstOf source s.journal.waiting with
    | none => s
    | some (a, rest) => ({ s with journal := { s.journal with waiting := rest } }.takeAppend a.tick a.hc a.body).1

end Sys2Proof.Machine
end

