-- ==== Sys2Proof/Machine/Lease.lean ====
section
/-! DEFINITION. The Lease Arbiter (chapter 7): taking, renewing, queueing, ending a tenure and the grant that follows it, expiry and the
warning, and the lease requests. -/

namespace Sys2Proof.Machine

/-- A tenure that begins now with a stage copied from the committed table (R133, R137). -/
def State.newTenure (s : State) (p : Port) (seconds : Nat) : Tenure :=
  { holder := p, expiry := afterMs s.nowTick (1000 * seconds), stage := s.config.committed }

/-- The lease passes on when a tenure ends (R137): FREE, or granted to the first waiter, which is latched. -/
def State.passLease (s : State) : State :=
  match s.queue with
  | [] => { s with lease := none }
  | w :: rest =>
    let s := { s with lease := some (s.newTenure w.host w.seconds), queue := rest }
    let s := s.handNow .leaseArbiter (.leaseEvent .granted w.host)
    s.latch w.host Latches.setLeaseGranted

/-- A tenure ends (R134, R135, R136): its stage goes with it, the ending is handed to the journal, and the lease passes on. -/
def State.endTenure (s : State) (event : LeaseEventKind) (holder : Port) : State :=
  (s.handNow .leaseArbiter (.leaseEvent event holder)).passLease

/-- An ending session at the Lease Arbiter (R136). -/
def State.forfeitLease (s : State) (p : Port) : State :=
  if s.holdsLease p then s.endTenure .forfeited p else { s with queue := s.queue.filter fun w => w.host != p }

/-- A session's place in the wait queue, from 1; 0 when it does not wait. -/
def placeIn (p : Port) : List Waiter → Nat
  | [] => 0
  | w :: rest => if w.host = p then 1 else match placeIn p rest with | 0 => 0 | n + 1 => n + 2

/-- The taking of a request that clears LEASE_GRANTED (R138, R154). -/
def State.seenGrant (s : State) (p : Port) : State := s.latch p Latches.clearLeaseGranted

/-- The payload of an OK to LEASE_TAKE (R133, R182). -/
def State.leaseOkPayload (s : State) (t : Tenure) : List Byte :=
  [portCode t.holder] ++ be16n (remainingMs s.nowTick t.expiry) ++ be16 s.config.generation

/-- The holder and its remaining time, as LEASE_HELD and QUEUED carry them (R133, R182). -/
def State.leaseHeldPayload (s : State) (t : Tenure) : List Byte :=
  [portCode t.holder] ++ be16n (remainingMs s.nowTick t.expiry)

/-- LEASE_TAKE decided by the lease as it stands (R133). -/
def State.takeLease (s : State) (p : Port) (seconds : Nat) (wait : Bool) : State × Reply :=
  match s.lease with
  | none =>
    let t := s.newTenure p seconds
    let s := { s with lease := some t }.handNow .leaseArbiter (.leaseEvent .granted p)
    (s, Reply.ok (s.leaseOkPayload t))
  | some t =>
    if t.holder = p then
      let t := { t with expiry := afterMs s.nowTick (1000 * seconds) }
      ({ s with lease := some t }, Reply.ok (s.leaseOkPayload t))
    else if !wait then (s, Reply.carry .leaseHeld (s.leaseHeldPayload t))
    else
      let queue := if placeIn p s.queue = 0 then s.queue ++ [{ host := p, seconds }] else s.queue
      ({ s with queue }, Reply.carry .queued (s.leaseHeldPayload t ++ [byteOf (placeIn p queue)]))

/-- LEASE_TAKE (R133, R138). -/
def reqLeaseTake (p : Port) (seconds wait : Byte) (s : State) : State × Reply :=
  let s := s.seenGrant p
  if seconds = 0 ∨ 60 < seconds.toNat ∨ isFlag wait = false then (s, Reply.refuse .badValue)
  else s.takeLease p seconds.toNat (wait == 1)

/-- LEASE_RELEASE (R134, R138). -/
def reqLeaseRelease (p : Port) (s : State) : State × Reply :=
  let s := s.seenGrant p
  if s.holdsLease p then (s.endTenure .released p, Reply.ok [])
  else if placeIn p s.queue = 0 then (s, Reply.refuse .notLeaseholder)
  else ({ s with queue := s.queue.filter fun w => w.host != p }, Reply.ok [])

/-- A place of the wait queue on the wire: host and stored duration (R182). -/
def waiterBytes : Option Waiter → List Byte
  | none => [0xFF, 0]
  | some w => [portCode w.host, byteOf w.seconds]

/-- The requester's place: 0 none, 1 holder, 2 waiter 1, 3 waiter 2 (R182). -/
def State.leasePlace (s : State) (p : Port) : Byte :=
  if s.holdsLease p then 1 else match placeIn p s.queue with | 0 => 0 | n + 1 => byteOf (n + 2)

/-- The stage differs from the committed table; told to the holder only (R139). -/
def State.stageDiffers (s : State) (p : Port) : Bool :=
  match s.lease with
  | none => false
  | some t => t.holder == p && t.stage != s.config.committed

/-- LEASE_STATUS (R138, R139, R182). -/
def reqLeaseStatus (p : Port) (s : State) : State × Reply :=
  let s := s.seenGrant p
  let lease : List Byte :=
    match s.lease with
    | none => [0, 0xFF, 0, 0]
    | some t => 1 :: s.leaseHeldPayload t
  (s, Reply.ok (lease ++ [byteOf s.queue.length] ++ waiterBytes s.queue[0]? ++ waiterBytes s.queue[1]? ++ [s.leasePlace p]
    ++ be16 s.config.generation ++ be16 s.config.code ++ [flagByte s.config.fault, flagByte (s.stageDiffers p)]))

/-- LEASE_EXPIRY: the tick counter has reached the holder's expiry tick (R135). -/
def execLeaseExpiry (s : State) : Host.Outcome State Fault Refusal :=
  s.whenRunning fun s =>
    match s.lease with
    | none => s
    | some t => if reached s.nowTick t.expiry then s.endTenure .expired t.holder else s

/-- LEASE_WARN_START: the remaining time has fallen to 2000 ms. LEASE_WARN is a level that the Attention Logic evaluates from the
lease and the tick counter (R138, R153), so the event drives the lines and changes nothing else (log 8). -/
def execLeaseWarnStart (s : State) : Host.Outcome State Fault Refusal :=
  s.whenRunning fun s => s

end Sys2Proof.Machine
end

