-- ==== Sys2Proof/Machine/Configuration.lean ====
section
/-! DEFINITION. The Configuration Controller (chapter 7): the stage, committing, the integrity scrub, the restart request; and CLEAR_TALLY,
which needs the lease as they do. -/

namespace Sys2Proof.Machine

/-- A request that needs the setup lease (check 6, R176). -/
def State.withLease (s : State) (p : Port) (f : Tenure → State × Reply) : State × Reply :=
  match s.lease with
  | none => (s, Reply.refuse .notLeaseholder)
  | some t => if t.holder = p then f t else (s, Reply.refuse .notLeaseholder)

/-- The stage of the tenure replaced. -/
def State.setStage (s : State) (t : Tenure) (stage : Table) : State := { s with lease := some { t with stage } }

/-! ### The stage (R141 to R143) -/

/-- STAGE_WRITE (R141). -/
def reqStageWrite (p : Port) (sec record field : Byte) (value : W16) (s : State) : State × Reply :=
  s.withLease p fun t =>
    match Item.ofAddress sec record field with
    | none => (s, Reply.refuse .badValue)
    | some i =>
      if i.inRange value then (s.setStage t (t.stage.set i value), Reply.ok ([sec, record, field] ++ be16 value))
      else (s, Reply.refuse .badValue)

/-- The values of items, two bytes each. -/
def itemBytes (t : Table) (items : List Item) : List Byte := items.flatMap fun i => be16 (t.get i)

/-- STAGE_READ (R142). -/
def reqStageRead (p : Port) (sec record field : Byte) (s : State) : State × Reply :=
  s.withLease p fun t =>
    match Item.named sec record field with
    | [] => (s, Reply.refuse .badValue)
    | items => (s, Reply.ok ([sec, record, field] ++ itemBytes t.stage items))

/-- CONFIG_READ (R142). -/
def reqConfigRead (sec record field : Byte) (s : State) : State × Reply :=
  match Item.named sec record field with
  | [] => (s, Reply.refuse .badValue)
  | items =>
    (s, Reply.ok (be16 s.config.generation ++ [sec, record, field] ++ itemBytes s.config.committed items))

/-- DISCARD (R143). -/
def reqDiscard (p : Port) (s : State) : State × Reply :=
  s.withLease p fun t => (s.setStage t s.config.committed, Reply.ok [])

/-! ### Committing (R144 to R146) -/

/-- Steps 2 to 4 of a commit: the stage becomes committed, the generation goes up, the code is recomputed, the fault is cleared. -/
def State.installTable (s : State) (new : Table) : State :=
  { s with
    config := { s.config with committed := new, generation := s.config.generation + 1, code := new.code, fault := false } }

/-- Step 6 of a commit: the new S2 is handed to the Capture Store if S2 changed, and the new S3 with the fault clear to the
Energy Block (R85, R108). -/
def State.handCommitted (s : State) (old new : Table) : State :=
  let s :=
    if old.cap = new.cap then s
    else { s with store := { s.store with inbox := s.store.inbox ++ [CapEvent.config new.cap] } }
  { s with energy := { s.energy with handed := s.energy.handed ++ [EnergyEvent.config new.energy] } }

/-- A commit whose stage passes validation (R146). -/
def State.carryOutCommit (s : State) (p : Port) (new : Table) : State × Reply :=
  let old := s.config.committed
  let sections := changedSections old new
  let accs := resetMask old.energy new.energy
  let s := s.installTable new
  let out := s.appendNow (.configCommit s.config.generation p sections accs)
  (out.1.handCommitted old new,
    Reply.ok (be16 s.config.generation ++ [sections, accs] ++ be32 (seqOrZero out.2)))

/-- COMMIT (R145, R146). -/
def reqCommit (p : Port) (s : State) : State × Reply :=
  s.withLease p fun t =>
    match validateStage s.token s.config.committed t.stage with
    | some (i, reason) =>
      (s, Reply.carry (if reason = .lock then .locked else .invalid) [i.sectionNumber, i.record, i.field, reason.code])
    | none => s.carryOutCommit p t.stage

/-! ### The scrub (R147) -/

/-- The time between two scrub passes, in ms. -/
abbrev scrubMs : Nat := 100

/-- A scrub pass: a mismatch with the fault clear sets it, hands INTEGRITY_FAULT to the journal and the fault to the Energy
Block. -/
def State.scrub (s : State) : State :=
  let s := { s with config := { s.config with nextScrub := afterMs s.config.nextScrub scrubMs } }
  if s.config.committed.code = s.config.code ∨ s.config.fault = true then s
  else
    let s := { s with config := { s.config with fault := true } }
    let s := s.handNow .configController (.integrityFault s.config.generation)
    { s with energy := { s.energy with handed := s.energy.handed ++ [EnergyEvent.fault] } }

/-- INTEGRITY_SCRUB: a pass that is due (R147). -/
def execIntegrityScrub (s : State) : Host.Outcome State Fault Refusal :=
  s.whenRunning fun s => if reached s.nowTick s.config.nextScrub then s.scrub else s

/-! ### RESTART (R148) -/

/-- The time after which a restart happens without delivery of its response, in ms (R149). -/
abbrev restartMs : Nat := 50

/-- RESTART (R148). -/
def reqRestart (p : Port) (generation : W16) (s : State) : State × Reply :=
  s.withLease p fun _ =>
    if generation ≠ s.config.generation then (s, Reply.refuse .badValue)
    else
      ({ s with config := { s.config with restartDue := some (afterMs s.nowTick restartMs) } },
        { status := .ok, payload := [], restartOk := true })

/-! ### CLEAR_TALLY (R75) and DETECTOR_STATUS (R77) -/

/-- A tally zeroed. -/
def Detector.clearTally (x : Detector) : Detector := { x with tallyCount := 0, tallySum := 0 }

/-- CLEAR_TALLY (R75). -/
def reqClearTally (p : Port) (mask : Byte) (s : State) : State × Reply :=
  s.withLease p fun _ =>
    if mask = 0 ∨ mask &&& 0xC0 ≠ 0 then (s, Reply.refuse .badValue)
    else
      let dets := s.det.dets.mapWith fun d x => if mask.getLsbD d.number then x.clearTally else x
      let s := { s with det := { s.det with dets } }
      let out := s.appendNow (.tallyCleared mask p)
      (out.1, Reply.ok (be32 (seqOrZero out.2)))

/-- One detector of DETECTOR_STATUS (R77, R182). -/
def Detector.statusBytes (x : Detector) : List Byte :=
  [x.state.code, byteOf x.run] ++ be16 x.episode ++ be32 x.startHc ++ be16n x.extreme ++ be24n x.age ++ be16n x.tallyCount
    ++ be24n x.tallySum

/-- DETECTOR_STATUS (R77). -/
def reqDetectorStatus (s : State) : State × Reply :=
  (s, Reply.ok (be16 s.det.nextEpisode ++ allDetectors.flatMap fun d => (s.det.dets.get d).statusBytes))

end Sys2Proof.Machine
end

