-- ==== Sys2Proof/Machine/Records.lean ====
section
/-! DEFINITION. The requests on the Capture Store (5.3, 5.6, 5.7) and on the Energy Block (6.5, 6.6), and read sets (10.2, 10.3). -/

namespace Sys2Proof.Machine

/-! ### Captures (R93, R98, R101 to R103) -/

/-- The reply to CAPTURE_NOW, by the store state that the trigger found (R93, R182). -/
def CaptureStore.nowReply (st : CaptureStore) : List Byte :=
  match st.mode with
  | .live _ ring => [0] ++ be16 st.nextId ++ be16n (min st.s2.pre.toNat ring.length) ++ [0, 0xFF]
  | .post c => [1] ++ be16 c.id ++ be16n c.recorded ++ [flagByte c.listsNext, 0xFF]
  | .disarmed => [2, 0, 0, 0, 0, 0, MissReason.disarmed.code]
  | .starved => [2, 0, 0, 0, 0, 0, MissReason.noSlot.code]

/-- CAPTURE_NOW (R93). -/
def reqCaptureNow (p : Port) (s : State) : State × Reply :=
  (s.takeTrigger (.host p) s.nowTick s.nowHc, Reply.ok s.store.nowReply)

/-- A capture's state code: 0 RECORDING, 1 SEALED. -/
def CaptureStore.captureState (st : CaptureStore) (c : Capture) : Byte :=
  match st.recording with
  | none => 1
  | some r => if r.id = c.id then 0 else 1

/-- CAPTURE_LIST (R102, R182). -/
def reqCaptureList (s : State) : State × Reply :=
  (s, Reply.ok (byteOf s.store.table.length :: s.store.table.flatMap fun c =>
    be16 c.id ++ [s.store.captureState c, byteOf c.slots.length, HostSet.toByte c.holders, c.flags.byte]))

/-- The arguments of READ_FRAMES in range (R101, first check). -/
def framesArgsOk (id : W16) (part : Byte) (offset : W16) (count : Byte) : Bool :=
  id != 0 && part.toNat ≤ 3 && offset.toNat ≤ 1023 && 1 ≤ count.toNat && count.toNat ≤ 19
    && offset.toNat + count.toNat ≤ slotFrames

/-- READ_FRAMES, its refusals in the order of R101. -/
def reqReadFrames (id : W16) (part : Byte) (offset : W16) (count : Byte) (s : State) : State × Reply :=
  if !framesArgsOk id part offset count then (s, Reply.refuse .badValue)
  else
    match s.store.find id with
    | none => (s, Reply.refuse .gone)
    | some c =>
      if s.store.captureState c = 0 then (s, Reply.refuse .notSealed)
      else if c.slots.length ≤ part.toNat then (s, Reply.refuse .badValue)
      else
        let frames := (c.frames.drop (part.toNat * slotFrames + offset.toNat)).take count.toNat
        (s, Reply.ok (be16 id ++ [part] ++ be16 offset ++ [count] ++ frames.flatMap Frame.bytes))

/-- RELEASE_CAPTURE (R98). A release by the HOLD session lets a STARVED store try again (R97). -/
def reqReleaseCapture (p : Port) (id : W16) (s : State) : State × Reply :=
  if id = 0 then (s, Reply.refuse .badValue)
  else
    match s.store.find id with
    | none => (s, Reply.refuse .gone)
    | some c =>
      if !c.holders.get p then (s, Reply.refuse .notHolder)
      else
        let release := fun (x : Capture) => if x.id = id then x.dropHolder p else x
        let s := { s with store := { s.store with sealedCaptures := s.store.sealedCaptures.map release } }
        (if s.inHold p then s.retryStarved else s, Reply.ok [HostSet.toByte (c.dropHolder p).holders])

/-- A trigger list entry on the wire (R182). -/
def TrigEntry.bytes (t : TrigEntry) : List Byte := [t.source.code] ++ be16n t.offset ++ be32 t.hc

/-- A capture's record on the wire (R103, R182). A sealed capture has no frames to record. -/
def CaptureStore.recordBytes (st : CaptureStore) (c : Capture) : List Byte :=
  be16 c.id ++ [st.captureState c] ++ slotBytes c.slots ++ [byteOf c.chainLimit] ++ be16n c.pre ++ be16n c.recorded
    ++ be16n (if st.captureState c = 0 then c.toRecord else 0) ++ be32 c.firstTick ++ be32 c.firstHc
    ++ [flagByte c.continueFlag, c.flags.byte, byteOf c.extra, HostSet.toByte c.holders, byteOf c.triggers.length]
    ++ c.triggers.flatMap TrigEntry.bytes

/-- The part of STORE_STATUS that every response carries (R103, R182). -/
def CaptureStore.statusBytes (st : CaptureStore) : List Byte :=
  [st.mode.code] ++ allSlots.map (fun i => (st.slotState i).code) ++ be16n st.liveCount ++ [byteOf st.s2.armed.toNat]
    ++ be16 st.nextId

/-- STORE_STATUS (R103). -/
def reqStoreStatus (id : W16) (s : State) : State × Reply :=
  if id = 0 then (s, Reply.ok s.store.statusBytes)
  else
    match s.store.find id with
    | none => (s, Reply.refuse .gone)
    | some c => (s, Reply.ok (s.store.statusBytes ++ s.store.recordBytes c))

/-! ### Energy (R115 to R119, R122) -/

/-- One accumulator of READ_ENERGY (R116): the delta is the value minus the requester's baseline, modulo 2^48. -/
def Accumulator.readBytes (r : Accumulator) (baseline : W48) : List Byte :=
  be48 r.value ++ be48 (r.value - baseline) ++ [r.gate.code] ++ be32 r.lastHc

/-- READ_ENERGY (R116). -/
def reqReadEnergy (p : Port) (s : State) : State × Reply :=
  s.withSession p fun x =>
    (s, Reply.ok (be32 s.energy.lastCloseHc
      ++ allAccumulators.flatMap fun a => (s.energy.acc.get a).readBytes (x.baselines.get a)))

/-- MARK_BASELINE (R115). -/
def reqMarkBaseline (p : Port) (mask : Byte) (s : State) : State × Reply :=
  s.withSession p fun x =>
    if mask = 0 ∨ mask &&& 0xF0 ≠ 0 then (s, Reply.refuse .badValue)
    else
      let baselines := x.baselines.mapWith fun a b => if mask.getLsbD a.number then (s.energy.acc.get a).value else b
      (s.setSession p (some { x with baselines }), Reply.ok (accBytes baselines))

/-- SNAPSHOT (R117). -/
def reqSnapshot (p : Port) (s : State) : State × Reply :=
  match s.energy.pendingSnapshot with
  | none =>
    let id := s.energy.nextSnapshot
    let pendingSnapshot : PendingSnapshot := { id, requesters := noHosts.set p true }
    ({ s with energy := { s.energy with pendingSnapshot := some pendingSnapshot, nextSnapshot := idSucc id } },
      Reply.ok (be16 id ++ [0]))
  | some x =>
    ({ s with energy := { s.energy with pendingSnapshot := some { x with requesters := x.requesters.set p true } } },
      Reply.ok (be16 x.id ++ [1]))

/-- READ_SNAPSHOT (R119): taking it clears the requester's SNAPSHOT_DONE. -/
def reqReadSnapshot (p : Port) (s : State) : State × Reply :=
  let r := s.energy.lastSnapshot
  let pendingId : W16 := match s.energy.pendingSnapshot with | none => 0 | some x => x.id
  (s.latch p Latches.clearSnapshotDone,
    Reply.ok (be16 r.id ++ be32 r.tick ++ be32 r.hc ++ [HostSet.toByte r.requesters] ++ accBytes r.values ++ be16 pendingId))

/-- One engine of PULSE_STATUS (R122, R182). -/
def PulseEngine.statusBytes (x : PulseEngine) (cfg : PulseCfg) : List Byte :=
  [byteOf cfg.binding.toNat] ++ be16 cfg.k ++ [byteOf cfg.width.toNat] ++ be16n x.residue ++ [byteOf x.pending]
    ++ be16n x.lost ++ [x.phase.code]

/-- PULSE_STATUS (R122): taking it clears the requester's PULSE_LOST. -/
def reqPulseStatus (p : Port) (s : State) : State × Reply :=
  (s.latch p Latches.clearPulseLost,
    Reply.ok (allPulseEngines.flatMap fun e => (s.energy.engines.get e).statusBytes (s.energy.s3.pulse.get e)))

/-! ### Read sets (R178 to R180) -/

/-- The quantity catalogue (10.3). -/
inductive Quantity where
  | uRms | iaRms | ibRms | residRms | uPeak | iaPeak | ibPeak | pA | pB | qA | qB | sA | sB | polarity | synthetic
  | halfPeriod | closeTick | closeHc | lineState | wholeSummary
  | value (a : AccId) | values | detectorStates | storeState | journalFill | generation
  deriving DecidableEq, Repr

def Quantity.all : List Quantity :=
  [.uRms, .iaRms, .ibRms, .residRms, .uPeak, .iaPeak, .ibPeak, .pA, .pB, .qA, .qB, .sA, .sB, .polarity, .synthetic, .halfPeriod,
   .closeTick, .closeHc, .lineState, .wholeSummary, .value .e0, .value .e1, .value .e2, .value .e3, .values, .detectorStates,
   .storeState, .journalFill, .generation]

/-- The quantity codes of 10.3. -/
def Quantity.byte : Quantity → Byte
  | .uRms => 0x01 | .iaRms => 0x02 | .ibRms => 0x03 | .residRms => 0x04 | .uPeak => 0x05 | .iaPeak => 0x06 | .ibPeak => 0x07
  | .pA => 0x08 | .pB => 0x09 | .qA => 0x0A | .qB => 0x0B | .sA => 0x0C | .sB => 0x0D | .polarity => 0x0E
  | .synthetic => 0x0F | .halfPeriod => 0x10 | .closeTick => 0x11 | .closeHc => 0x12 | .lineState => 0x13
  | .wholeSummary => 0x14
  | .value .e0 => 0x20 | .value .e1 => 0x21 | .value .e2 => 0x22 | .value .e3 => 0x23 | .values => 0x24
  | .detectorStates => 0x30 | .storeState => 0x31 | .journalFill => 0x32 | .generation => 0x33

def Quantity.ofByte (b : Byte) : Option Quantity := Quantity.all.find? fun q => q.byte == b

/-- The catalogue's size of a quantity (10.3). -/
def Quantity.size : Quantity → Nat
  | .uRms => 2 | .iaRms => 2 | .ibRms => 2 | .residRms => 2 | .uPeak => 2 | .iaPeak => 2 | .ibPeak => 2
  | .pA => 4 | .pB => 4 | .qA => 4 | .qB => 4 | .sA => 4 | .sB => 4 | .polarity => 1 | .synthetic => 1 | .halfPeriod => 1
  | .closeTick => 4 | .closeHc => 4 | .lineState => 1 | .wholeSummary => 45
  | .value _ => 6 | .values => 24 | .detectorStates => 3 | .storeState => 1 | .journalFill => 2 | .generation => 2

/-- The whole summary: hc, polarity, sample count, synthetic flag, then $01 to $07 and $08 to $0D (10.3). -/
def Summary.bytes (x : Summary) : List Byte :=
  be32 x.hc ++ [x.polarity.code, byteOf x.n, flagByte x.synthetic] ++ be16n x.uRms ++ be16n x.iaRms ++ be16n x.ibRms
    ++ be16n x.residRms ++ be16n x.uPeak ++ be16n x.iaPeak ++ be16n x.ibPeak ++ be32i x.pA ++ be32i x.pB ++ be32i x.qA
    ++ be32i x.qB ++ be32i x.sA ++ be32i x.sB

/-- Two detector states in a byte, the first in the high half (10.3). -/
def packTwo (a b : DetState) : Byte := a.code <<< 4 ||| b.code

/-- The packed detector states (10.3). -/
def DetectorBank.packed (b : DetectorBank) : List Byte :=
  let d := b.dets
  [packTwo d.uDip.state d.uSwell.state, packTwo d.uIntr.state d.iaOver.state, packTwo d.ibOver.state d.iResid.state]

/-- The value of a quantity on the wire (R179): from the read image, or from its block as that stands (R180). -/
def State.quantity (s : State) (q : Quantity) : List Byte :=
  let i := s.front.image
  let x := i.summary
  match q with
  | .uRms => be16n x.uRms | .iaRms => be16n x.iaRms | .ibRms => be16n x.ibRms | .residRms => be16n x.residRms
  | .uPeak => be16n x.uPeak | .iaPeak => be16n x.iaPeak | .ibPeak => be16n x.ibPeak
  | .pA => be32i x.pA | .pB => be32i x.pB | .qA => be32i x.qA | .qB => be32i x.qB | .sA => be32i x.sA | .sB => be32i x.sB
  | .polarity => [x.polarity.code] | .synthetic => [flagByte x.synthetic] | .halfPeriod => [byteOf x.n]
  | .closeTick => be32 i.closeTick | .closeHc => be32 x.hc | .lineState => [i.lineState.code] | .wholeSummary => x.bytes
  | .value a => be48 (s.energy.acc.get a).value | .values => accBytes s.energy.values
  | .detectorStates => s.det.packed | .storeState => [s.store.mode.code] | .journalFill => be16n s.journal.entries.length
  | .generation => be16 s.config.generation

/-- The quantities of a list of codes; none if a code is not in the catalogue (R178). -/
def quantitiesOf : List Byte → Option (List Quantity)
  | [] => some []
  | b :: rest =>
    match Quantity.ofByte b, quantitiesOf rest with
    | some q, some qs => some (q :: qs)
    | _, _ => none

/-- The total size of a list of quantities. -/
def totalSize : List Quantity → Nat
  | [] => 0
  | q :: rest => q.size + totalSize rest

/-- The bytes that a read set may hold (R178). -/
abbrev readSetLimit : Nat := 120

/-- DEFINE_READ_SET (R178). -/
def reqDefineReadSet (p : Port) (codes : List Byte) (s : State) : State × Reply :=
  s.withSession p fun x =>
    match quantitiesOf codes with
    | none => (s, Reply.refuse .badValue)
    | some qs =>
      if readSetLimit < totalSize qs then (s, Reply.refuse .badValue)
      else (s.setSession p (some { x with readSet := codes }), Reply.ok [byteOf codes.length, byteOf (totalSize qs)])

/-- The bytes of one code of a read set; a defined read set holds codes of the catalogue only. -/
def State.codeBytes (s : State) (code : Byte) : List Byte :=
  match Quantity.ofByte code with
  | none => []
  | some q => s.quantity q

/-- READ_SET (R179): the close hc of the read image, then each quantity in list order. -/
def reqReadSet (p : Port) (s : State) : State × Reply :=
  s.withSession p fun x => (s, Reply.ok (be32 s.front.image.summary.hc ++ x.readSet.flatMap s.codeBytes))

end Sys2Proof.Machine
end

