-- ==== Sys2Proof/Machine/Sessions.lean ====
section
/-! DEFINITION. The end of a session with its teardown (9.5), CLOSE_SESSION, the idle expiry, and PORT_STATUS (9.4). -/

namespace Sys2Proof.Machine

/-! ### Teardown (R173) -/

/-- The session's record goes: the port is CLOSED, its idle deadline none, and its reader record, attention record, baselines and
read set are discarded with it (R42, R126, R159, R173). A HOLD token it held becomes free (R26). -/
def State.discardSession (s : State) (p : Port) : State :=
  let s := if s.inHold p then s.freeToken else s
  s.setSession p none

/-- The host leaves a pending snapshot, which stays pending (R126). -/
def State.dropFromSnapshot (s : State) (p : Port) : State :=
  match s.energy.pendingSnapshot with
  | none => s
  | some x => { s with energy := { s.energy with pendingSnapshot := some { x with requesters := x.requesters.set p false } } }

/-- The Capture Store and the Lease Arbiter tear down their parts. Each may hand entries to the journal, and how they stand among
one another is left open (R173, `Config.teardownOrder`, log 10); each block's own keep their order (R137). -/
def State.tearDownBlocks (s : State) (p : Port) : State :=
  let t := { s with draws := s.draws + 1 }
  if Config.teardownOrder s.draws = 0 then (t.forfeitLease p).dropFromCaptures p
  else if Config.teardownOrder s.draws = 1 then (t.dropFromCaptures p).forfeitLease p
  else if t.holdsLease p then ((t.handNow .leaseArbiter (.leaseEvent .forfeited p)).dropFromCaptures p).passLease
  else (t.dropFromCaptures p).forfeitLease p

/-- A session ends, whatever the cause: every block tears down its part, and only then SESSION_EVENT is appended (R173). The
outcome of that append is the sequence number, if it was stored. -/
def State.endSession (s : State) (p : Port) (event : SessionEventKind) : State × Option W32 :=
  (((s.discardSession p).tearDownBlocks p).dropFromSnapshot p).appendNow (.sessionEvent p event)

/-- CLOSE_SESSION (R173). -/
def reqCloseSession (p : Port) (s : State) : State × Reply :=
  s.withSession p fun _ =>
    let out := s.endSession p .closed
    (out.1, Reply.ok (be32 (seqOrZero out.2)))

/-- Whether a session's idle deadline has come (R174). -/
def State.idleOver (s : State) (p : Port) : Bool :=
  match s.session p with
  | none => false
  | some x => match x.idleDeadline with | none => false | some due => reached s.nowTick due

/-- IDLE_EXPIRY: the tick counter has reached the session's idle deadline (R174). -/
def execIdleExpiry (p : Port) (s : State) : Host.Outcome State Fault Refusal :=
  s.whenRunning fun s => if s.idleOver p then (s.endSession p .expired).1 else s

/-! ### The error counters and PORT_STATUS (R171) -/

/-- The error counters that every port has. -/
def State.counters (s : State) : Port → LinkCounters
  | .a => s.links.a.counters
  | .b => s.links.b.counters
  | .c => s.portC.counters

/-- The counter of the port's own kind: UNFETCHED, or OVERLAP on port C. -/
def State.ownCounter (s : State) : Port → Nat
  | .a => s.links.a.unfetched
  | .b => s.links.b.unfetched
  | .c => s.portC.overlap

/-- A function of a port's error counters. -/
def State.onCounters (s : State) (p : Port) (f : LinkCounters → LinkCounters) : State :=
  match p with
  | .a => { s with links := { s.links with a := { s.links.a with counters := f s.links.a.counters } } }
  | .b => { s with links := { s.links with b := { s.links.b with counters := f s.links.b.counters } } }
  | .c => { s with portC := { s.portC with counters := f s.portC.counters } }

def LinkCounters.addBadLead (c : LinkCounters) : LinkCounters := { c with badLead := satInc limit8 c.badLead }
def LinkCounters.addCut (c : LinkCounters) : LinkCounters := { c with cut := satInc limit8 c.cut }
def LinkCounters.addTimeout (c : LinkCounters) : LinkCounters := { c with timeout := satInc limit8 c.timeout }
def LinkCounters.addLength (c : LinkCounters) : LinkCounters := { c with length := satInc limit8 c.length }
def LinkCounters.addCheckFail (c : LinkCounters) : LinkCounters := { c with checkFail := satInc limit8 c.checkFail }

/-- All six counters of a port set to 0. -/
def State.clearCounters (s : State) : Port → State
  | .a => { s with links := { s.links with a := { s.links.a with counters := .zero, unfetched := 0 } } }
  | .b => { s with links := { s.links with b := { s.links.b with counters := .zero, unfetched := 0 } } }
  | .c => { s with portC := { s.portC with counters := .zero, overlap := 0 } }

/-- The locked rate in bit/s, from the span of the lead, which is 8 bit times in ns; how a rate that is not whole is rounded is
left open (R166, R171, `Config.rateRoundsUp`, log 13). -/
def lockedRate (span : Nat) : Nat :=
  let rate := 8000000000 / span
  if 8000000000 % span = 0 then rate else if Config.rateRoundsUp span then rate + 1 else rate

/-- Rate lock, locked rate and rate mode, which are 0 on ports A and B (R171, R182). -/
def State.rateBytes (s : State) : Port → List Byte
  | .a => [0, 0, 0, 0, 0, 0]
  | .b => [0, 0, 0, 0, 0, 0]
  | .c =>
    let lock := match s.portC.rateSpan with
      | none => (0 : Byte) :: be32 0
      | some span => 1 :: be32 (BitVec.ofNat 32 (lockedRate span))
    lock ++ [byteOf s.config.committed.rateMode.toNat]

/-- The payload of PORT_STATUS: the counters as they stand (R171, R182). -/
def State.portStatusBytes (s : State) (p : Port) : List Byte :=
  let c := s.counters p
  [byteOf c.badLead, byteOf c.cut, byteOf c.timeout, byteOf c.length, byteOf c.checkFail, byteOf (s.ownCounter p),
   flagByte (s.session p).isSome] ++ s.rateBytes p

/-- PORT_STATUS (R171): the report is formed before any clearing, and the UNFETCHED that the response itself causes is counted
after both. -/
def reqPortStatus (p : Port) (clear : Byte) (s : State) : State × Reply :=
  if !isFlag clear then (s, Reply.refuse .badValue)
  else (if clear = 1 then s.clearCounters p else s, Reply.ok (s.portStatusBytes p))

end Sys2Proof.Machine
end

