-- ==== Sys2Proof/Machine/Requests.lean ====
section
/-! DEFINITION. Requests (chapter 10): the general checks, taking a frame, answering it, a complete frame's arrival on a port
(R161, R169, R174), and the commands that are requests, each the arrival of its good frame. -/

namespace Sys2Proof.Machine

/-! ### Carrying out a request (R176) -/

/-- The block that owns a request takes it: the checks 6, 7 and 8, the effect, and the reply. `deadline` is the idle deadline that
the completion of the frame gave the port, the first one of a session that it opens (R174). -/
def State.perform (s : State) (p : Port) (deadline : Option W32) : Request → State × Reply
  | .openSession start retention => reqOpenSession p deadline start retention s
  | .closeSession => reqCloseSession p s
  | .portStatus clear => reqPortStatus p clear s
  | .setAttention mask watermark => reqSetAttention p mask watermark s
  | .attentionStatus => reqAttentionStatus p s
  | .setSubscription mask => reqSetSubscription p mask s
  | .setRetention retention => reqSetRetention p retention s
  | .readEntries countAndAck => reqReadEntries p countAndAck s
  | .ackEntries seq => reqAckEntries p seq s
  | .rewind => reqRewind p s
  | .journalStatus => reqJournalStatus p s
  | .appendNote data => reqAppendNote p data s
  | .captureNow => reqCaptureNow p s
  | .captureList => reqCaptureList s
  | .readFrames id part offset count => reqReadFrames id part offset count s
  | .releaseCapture id => reqReleaseCapture p id s
  | .storeStatus id => reqStoreStatus id s
  | .readEnergy => reqReadEnergy p s
  | .markBaseline mask => reqMarkBaseline p mask s
  | .snapshot => reqSnapshot p s
  | .readSnapshot => reqReadSnapshot p s
  | .pulseStatus => reqPulseStatus p s
  | .leaseTake seconds wait => reqLeaseTake p seconds wait s
  | .leaseRelease => reqLeaseRelease p s
  | .leaseStatus => reqLeaseStatus p s
  | .stageWrite sec record field value => reqStageWrite p sec record field value s
  | .stageRead sec record field => reqStageRead p sec record field s
  | .configRead sec record field => reqConfigRead sec record field s
  | .commit => reqCommit p s
  | .discard => reqDiscard p s
  | .clearTally mask => reqClearTally p mask s
  | .restart generation => reqRestart p generation s
  | .defineReadSet codes => reqDefineReadSet p codes s
  | .readSet => reqReadSet p s
  | .detectorStatus => reqDetectorStatus s

/-! ### Answering (R164, R169) -/

/-- A response becomes the pending response of port A or B; an older one is discarded and counted (R164). -/
def SyncLink.answer (k : SyncLink) (r : Response) : SyncLink :=
  { k with
    pending := some r
    fetchPos := 0
    unfetched := if k.pending.isSome then satInc limit8 k.unfetched else k.unfetched }

/-- A response on its port: pending on A and B, sent at once on C (R161). -/
def State.answer (s : State) (p : Port) (r : Response) : State :=
  match p with
  | .a => { s with links := { s.links with a := s.links.a.answer r } }
  | .b => { s with links := { s.links with b := s.links.b.answer r } }
  | .c => { s with portC := { s.portC with sending := some r } }

/-! ### The general checks (R175) -/

/-- What the general checks find of a frame: the status of the first that fails, or the request to be taken. -/
inductive Verdict where
  | fails (status : Status)
  | passes (r : Request)
  deriving DecidableEq, Repr

/-- The general checks 1 to 5, in order. -/
def State.judge (s : State) (p : Port) (f : RequestFrame) : Verdict :=
  if f.sum ≠ 0xFF then .fails .checkFail
  else if s.config.restartDue.isSome then .fails .restarting
  else
    match ReqCode.ofByte f.code with
    | none => .fails .badCode
    | some c =>
      if !c.lengthOk f.payload.length then .fails .badLength
      else if c.needsSession && (s.session p).isNone then .fails .noSession
      else match c.read f.payload with
        | none => .fails .badLength
        | some r => .passes r

/-! ### Taking a frame (R161) -/

/-- A frame that fails a check is answered by the Port Interface, a bad check byte is counted, and no block takes it (R175). -/
def State.refuseFrame (s : State) (p : Port) (tag : Byte) (st : Status) : State :=
  (if st = .checkFail then s.onCounters p LinkCounters.addCheckFail else s).answer p (responseOf tag (Reply.refuse st))

/-- A request is taken, and its response is formed as it is taken. -/
def State.serve (s : State) (p : Port) (deadline : Option W32) (tag : Byte) (r : Request) : State :=
  let out := s.perform p deadline r
  out.1.answer p (responseOf tag out.2)

/-- A frame is taken (R161, R175). -/
def State.takeRequestFrame (s : State) (p : Port) (deadline : Option W32) (f : RequestFrame) : State :=
  match s.judge p f with
  | .fails st => s.refuseFrame p f.tag st
  | .passes r => s.serve p deadline f.tag r

/-! ### A frame becomes complete (R161, R169, R174) -/

/-- The idle deadline of an open session is set again (R174). -/
def State.restartIdle (s : State) (p : Port) : State :=
  let due := s.deadlineFrom p
  s.onSession p fun x => { x with idleDeadline := due }

/-- A frame complete on port C: taken if the transmitter is IDLE, else held with the deadline its completion gave (R174), else
discarded as OVERLAP (R169). -/
def State.arriveOnC (s : State) (deadline : Option W32) (f : RequestFrame) : State :=
  match s.portC.sending with
  | none => s.takeRequestFrame .c deadline f
  | some _ =>
    match s.portC.held with
    | none => { s with portC := { s.portC with held := some { frame := f, deadline } } }
    | some _ => { s with portC := { s.portC with overlap := satInc limit8 s.portC.overlap } }

/-- A request frame is complete on a port. -/
def State.arrive (s : State) (p : Port) (f : RequestFrame) : State :=
  let deadline := s.deadlineFrom p
  let s := s.restartIdle p
  match p with
  | .a => s.takeRequestFrame .a deadline f
  | .b => s.takeRequestFrame .b deadline f
  | .c => s.arriveOnC deadline f

/-- The good frame of a request is complete on a port (log 18). -/
def State.request (s : State) (p : Port) (tag : Byte) (r : Request) : State := s.arrive p (frameOf tag r)

/-! ### The commands -/

/-- BAD_FRAME: a complete frame, given byte for byte, judged as R175 lays down (log 18). -/
def execBadFrame (p : Port) (tag code : Byte) (payload : List Byte) (check : Byte) (s : State) :
    Host.Outcome State Fault Refusal :=
  s.whenRunning fun s => s.arrive p { tag, code, payload, check }

/-- OPEN_SESSION (R172). -/
def execOpenSession (p : Port) (tag start retention : Byte) (s : State) : Host.Outcome State Fault Refusal :=
  s.whenRunning fun s => s.request p tag (.openSession start retention)

/-- CLOSE_SESSION (R173). -/
def execCloseSession (p : Port) (tag : Byte) (s : State) : Host.Outcome State Fault Refusal :=
  s.whenRunning fun s => s.request p tag .closeSession

/-- PORT_STATUS (R171). -/
def execPortStatus (p : Port) (tag clear : Byte) (s : State) : Host.Outcome State Fault Refusal :=
  s.whenRunning fun s => s.request p tag (.portStatus clear)

/-- SET_ATTENTION (R155). -/
def execSetAttention (p : Port) (tag mask watermark : Byte) (s : State) : Host.Outcome State Fault Refusal :=
  s.whenRunning fun s => s.request p tag (.setAttention mask watermark)

/-- ATTENTION_STATUS (R156). -/
def execAttentionStatus (p : Port) (tag : Byte) (s : State) : Host.Outcome State Fault Refusal :=
  s.whenRunning fun s => s.request p tag .attentionStatus

/-- SET_SUBSCRIPTION (R34). -/
def execSetSubscription (p : Port) (tag mask : Byte) (s : State) : Host.Outcome State Fault Refusal :=
  s.whenRunning fun s => s.request p tag (.setSubscription mask)

/-- SET_RETENTION (R35). -/
def execSetRetention (p : Port) (tag retention : Byte) (s : State) : Host.Outcome State Fault Refusal :=
  s.whenRunning fun s => s.request p tag (.setRetention retention)

/-- READ_ENTRIES (R28). -/
def execReadEntries (p : Port) (tag countAndAck : Byte) (s : State) : Host.Outcome State Fault Refusal :=
  s.whenRunning fun s => s.request p tag (.readEntries countAndAck)

/-- ACK_ENTRIES (R32). -/
def execAckEntries (p : Port) (tag : Byte) (seq : W32) (s : State) : Host.Outcome State Fault Refusal :=
  s.whenRunning fun s => s.request p tag (.ackEntries seq)

/-- REWIND (R33). -/
def execRewind (p : Port) (tag : Byte) (s : State) : Host.Outcome State Fault Refusal :=
  s.whenRunning fun s => s.request p tag .rewind

/-- JOURNAL_STATUS (R41). -/
def execJournalStatus (p : Port) (tag : Byte) (s : State) : Host.Outcome State Fault Refusal :=
  s.whenRunning fun s => s.request p tag .journalStatus

/-- APPEND_NOTE (R40). -/
def execAppendNote (p : Port) (tag : Byte) (data : List Byte) (s : State) : Host.Outcome State Fault Refusal :=
  s.whenRunning fun s => s.request p tag (.appendNote data)

/-- CAPTURE_NOW (R93). -/
def execCaptureNow (p : Port) (tag : Byte) (s : State) : Host.Outcome State Fault Refusal :=
  s.whenRunning fun s => s.request p tag .captureNow

/-- CAPTURE_LIST (R102). -/
def execCaptureList (p : Port) (tag : Byte) (s : State) : Host.Outcome State Fault Refusal :=
  s.whenRunning fun s => s.request p tag .captureList

/-- READ_FRAMES (R101). -/
def execReadFrames (p : Port) (tag : Byte) (id : W16) (part : Byte) (offset : W16) (count : Byte) (s : State) :
    Host.Outcome State Fault Refusal :=
  s.whenRunning fun s => s.request p tag (.readFrames id part offset count)

/-- RELEASE_CAPTURE (R98). -/
def execReleaseCapture (p : Port) (tag : Byte) (id : W16) (s : State) : Host.Outcome State Fault Refusal :=
  s.whenRunning fun s => s.request p tag (.releaseCapture id)

/-- STORE_STATUS (R103). -/
def execStoreStatus (p : Port) (tag : Byte) (id : W16) (s : State) : Host.Outcome State Fault Refusal :=
  s.whenRunning fun s => s.request p tag (.storeStatus id)

/-- READ_ENERGY (R116). -/
def execReadEnergy (p : Port) (tag : Byte) (s : State) : Host.Outcome State Fault Refusal :=
  s.whenRunning fun s => s.request p tag .readEnergy

/-- MARK_BASELINE (R115). -/
def execMarkBaseline (p : Port) (tag mask : Byte) (s : State) : Host.Outcome State Fault Refusal :=
  s.whenRunning fun s => s.request p tag (.markBaseline mask)

/-- SNAPSHOT (R117). -/
def execSnapshot (p : Port) (tag : Byte) (s : State) : Host.Outcome State Fault Refusal :=
  s.whenRunning fun s => s.request p tag .snapshot

/-- READ_SNAPSHOT (R119). -/
def execReadSnapshot (p : Port) (tag : Byte) (s : State) : Host.Outcome State Fault Refusal :=
  s.whenRunning fun s => s.request p tag .readSnapshot

/-- PULSE_STATUS (R122). -/
def execPulseStatus (p : Port) (tag : Byte) (s : State) : Host.Outcome State Fault Refusal :=
  s.whenRunning fun s => s.request p tag .pulseStatus

/-- LEASE_TAKE (R133). -/
def execLeaseTake (p : Port) (tag seconds wait : Byte) (s : State) : Host.Outcome State Fault Refusal :=
  s.whenRunning fun s => s.request p tag (.leaseTake seconds wait)

/-- LEASE_RELEASE (R134). -/
def execLeaseRelease (p : Port) (tag : Byte) (s : State) : Host.Outcome State Fault Refusal :=
  s.whenRunning fun s => s.request p tag .leaseRelease

/-- LEASE_STATUS (R139). -/
def execLeaseStatus (p : Port) (tag : Byte) (s : State) : Host.Outcome State Fault Refusal :=
  s.whenRunning fun s => s.request p tag .leaseStatus

/-- STAGE_WRITE (R141). -/
def execStageWrite (p : Port) (tag sec record field : Byte) (value : W16) (s : State) : Host.Outcome State Fault Refusal :=
  s.whenRunning fun s => s.request p tag (.stageWrite sec record field value)

/-- STAGE_READ (R142). -/
def execStageRead (p : Port) (tag sec record field : Byte) (s : State) : Host.Outcome State Fault Refusal :=
  s.whenRunning fun s => s.request p tag (.stageRead sec record field)

/-- CONFIG_READ (R142). -/
def execConfigRead (p : Port) (tag sec record field : Byte) (s : State) : Host.Outcome State Fault Refusal :=
  s.whenRunning fun s => s.request p tag (.configRead sec record field)

/-- COMMIT (R145, R146). -/
def execCommit (p : Port) (tag : Byte) (s : State) : Host.Outcome State Fault Refusal :=
  s.whenRunning fun s => s.request p tag .commit

/-- DISCARD (R143). -/
def execDiscard (p : Port) (tag : Byte) (s : State) : Host.Outcome State Fault Refusal :=
  s.whenRunning fun s => s.request p tag .discard

/-- CLEAR_TALLY (R75). -/
def execClearTally (p : Port) (tag mask : Byte) (s : State) : Host.Outcome State Fault Refusal :=
  s.whenRunning fun s => s.request p tag (.clearTally mask)

/-- RESTART (R148). -/
def execRestart (p : Port) (tag : Byte) (generation : W16) (s : State) : Host.Outcome State Fault Refusal :=
  s.whenRunning fun s => s.request p tag (.restart generation)

/-- DEFINE_READ_SET (R178). -/
def execDefineReadSet (p : Port) (tag : Byte) (codes : List Byte) (s : State) : Host.Outcome State Fault Refusal :=
  s.whenRunning fun s => s.request p tag (.defineReadSet codes)

/-- READ_SET (R179). -/
def execReadSet (p : Port) (tag : Byte) (s : State) : Host.Outcome State Fault Refusal :=
  s.whenRunning fun s => s.request p tag .readSet

/-- DETECTOR_STATUS (R77). -/
def execDetectorStatus (p : Port) (tag : Byte) (s : State) : Host.Outcome State Fault Refusal :=
  s.whenRunning fun s => s.request p tag .detectorStatus

end Sys2Proof.Machine
end

