-- ==== Sys2Proof/Machine/Reset.lean ====
section
/-! DEFINITION. The three kinds of reset (1.7) and the end of a pin reset. What each block is after a reset stands in State.lean;
here is what a reset keeps, and when it comes. -/

namespace Sys2Proof.Machine

/-- What a pin reset and a restart request keep: the epoch advances by one, and the committed S3, the accumulator values and
residues and the pulse residues stay (R11, R127, R150). The S3 in force becomes the committed S3 (6.1, log 17). -/
def State.restarted (s : State) (cause : RestartCause) (pins : Pins) : State :=
  State.afterReset cause (idSucc s.journal.epoch) s.config.committed.energy
    (s.energy.acc.mapWith fun _ r => (r.value, r.residue)) (s.energy.engines.mapWith fun _ x => x.residue) pins s.draws s.pending

/-- The restart that a RESTART brings about: a pin reset with cause REQUEST, over at once (R149). -/
def State.restartNow (s : State) : State := s.restarted .request s.pins

/-- POWER_ON_RESET (R11, R21, R22). The pins are the outside's: a RESET that is held low stays low. -/
def execPowerOnReset (s : State) : Host.Outcome State Fault Refusal :=
  (State.afterReset .powerOn 1 energyDefaults (PerAcc.all (0, 0)) ⟨0, 0⟩ s.pins s.draws s.pending).done

/-- PIN_RESET: RESET is driven low (R11, R21, R22). On a line that is low already there is no such event. -/
def execPinReset (s : State) : Host.Outcome State Fault Refusal :=
  if s.pins.resetLow then s.done else (s.restarted .pin { s.pins with resetLow := true }).done

/-- RESET_RELEASE: RESET returns high. The part runs from here on, and the kept level of XTRIG_IN is taken from the pin without
an edge (R44, R92). On a line that is high already there is no such event. -/
def execResetRelease (s : State) : Host.Outcome State Fault Refusal :=
  if s.pins.resetLow then
    { s with
      pins := { s.pins with resetLow := false }
      store := { s.store with xtrigLevel := s.pins.xtrigInHigh } }.done
  else s.done

/-- RESTART_TIMEOUT: the 50 ms since RESTART was taken are over without delivery of its response (R149). -/
def execRestartTimeout (s : State) : Host.Outcome State Fault Refusal :=
  s.whenRunning fun s =>
    match s.config.restartDue with
    | none => s
    | some due => if reached s.nowTick due then s.restartNow else s

end Sys2Proof.Machine
end

