-- ==== Sys2Proof/Machine/Ports.lean ====
section
/-! DEFINITION. The ports byte by byte (chapter 9): transactions on ports A and B, leads and bytes on port C, the gap of 8 ms, the end
of a response, and the break. -/

namespace Sys2Proof.Machine

/-! ### Ports A and B: the link (R162 to R165) -/

/-- A function of a synchronous port's link. -/
def State.onLink (s : State) (p : SyncId) (f : SyncLink → SyncLink) : State :=
  { s with links := s.links.set p (f (s.links.get p)) }

def SyncLink.onCounters (k : SyncLink) (f : LinkCounters → LinkCounters) : SyncLink := { k with counters := f k.counters }

/-- What the part shifts out when it has nothing to send. -/
abbrev idleByte : Byte := 0xFF

/-- The frame in receipt is discarded and the rest of the transaction ignored. -/
def SyncLink.ignoreRest (k : SyncLink) : SyncLink := { k with phase := .ignore, receipt := [] }

/-- Select goes low: phase FIRST, with SDO driven (R162). -/
def SyncLink.selected (k : SyncLink) : SyncLink := { k with phase := .first, receipt := [], sdo := some idleByte }

/-- Select goes high: phase NONE, SDO not driven; an unfinished request counts CUT, an unfinished fetch starts over (R162, R163,
R165). -/
def SyncLink.deselected (k : SyncLink) : SyncLink :=
  let k' := if k.phase = .request then k.onCounters LinkCounters.addCut else k
  { k' with phase := .none, receipt := [], sdo := none, fetchPos := if k.phase = .fetch then 0 else k.fetchPos }

/-- The first complete byte of a transaction (R162). -/
def SyncLink.firstByte (k : SyncLink) (now : W32) (b : Byte) : SyncLink :=
  if b = requestLead then { k with phase := .request, receipt := [b], lastByte := now }
  else if b = 0 then { k with phase := .fetch, receipt := [] }
  else (k.onCounters LinkCounters.addBadLead).ignoreRest

/-- The level of a select pin. -/
def State.setSelect (s : State) (p : SyncId) (low : Bool) : State :=
  { s with pins := { s.pins with selLow := s.pins.selLow.set p low } }

/-- SELECT_FALL (R162). While RESET is held low only the pin follows, and a select that is low already does not fall. -/
def execSelectFall (p : SyncId) (s : State) : Host.Outcome State Fault Refusal :=
  (s.setSelect p true).whenRunning fun t => if s.pins.selLow.get p then t else t.onLink p SyncLink.selected

/-- SELECT_RISE (R162, R163, R165). -/
def execSelectRise (p : SyncId) (s : State) : Host.Outcome State Fault Refusal :=
  (s.setSelect p false).whenRunning fun t => if s.pins.selLow.get p then t.onLink p SyncLink.deselected else t

/-- FIRST_BYTE (R162). In another phase than FIRST there is no first byte to come (log 19). -/
def execFirstByte (p : SyncId) (b : Byte) (s : State) : Host.Outcome State Fault Refusal :=
  s.whenRunning fun s => if (s.links.get p).phase = .first then s.onLink p fun k => k.firstByte s.nowTick b else s

/-- One more byte of the request frame in receipt (R163); with its check byte the frame is complete, and the rest of the
transaction is ignored. -/
def State.syncByte (s : State) (p : SyncId) (b : Byte) : State :=
  let bytes := (s.links.get p).receipt ++ [b]
  match readReceipt bytes with
  | .more => s.onLink p fun k => { k with receipt := bytes, lastByte := s.nowTick }
  | .tooLong => s.onLink p fun k => (k.onCounters LinkCounters.addLength).ignoreRest
  | .complete f => (s.onLink p SyncLink.ignoreRest).arrive (syncPort p) f

/-- REQUEST_BYTE (R163). A byte in IGNORE is ignored, and in any other phase there is no byte of a request (log 19). -/
def execRequestByte (p : SyncId) (b : Byte) (s : State) : Host.Outcome State Fault Refusal :=
  s.whenRunning fun s => if (s.links.get p).phase = .request then s.syncByte p b else s

/-- One more byte fetched (R165, R149). -/
def State.fetchOne (s : State) (p : SyncId) : State :=
  let k := s.links.get p
  match k.pending with
  | none => s.onLink p fun k => { k with sdo := some idleByte }
  | some r =>
    let out := r.bytes.getD k.fetchPos idleByte
    if r.bytes.length ≤ k.fetchPos + 1 then
      if r.restartOk then s.restartNow
      else s.onLink p fun k => { k with pending := none, fetchPos := 0, sdo := some out }
    else s.onLink p fun k => { k with fetchPos := k.fetchPos + 1, sdo := some out }

/-- FETCH_BYTE (R165). In another phase than FETCH nothing is fetched (log 19). -/
def execFetchByte (p : SyncId) (s : State) : Host.Outcome State Fault Refusal :=
  s.whenRunning fun s => if (s.links.get p).phase = .fetch then s.fetchOne p else s

/-! ### Port C: leads (R166, R167) -/

/-- A function of port C's link. -/
def State.onPortC (s : State) (f : AsyncLink → AsyncLink) : State := { s with portC := f s.portC }

def AsyncLink.onCounters (k : AsyncLink) (f : LinkCounters → LinkCounters) : AsyncLink := { k with counters := f k.counters }

/-- A frame in receipt, its lead taken. -/
def AsyncLink.startFrame (k : AsyncLink) (now : W32) : AsyncLink :=
  { k with phase := .inFrame, receipt := [requestLead], lastByte := now }

/-- The frame in receipt is discarded and the port hunts again. -/
def AsyncLink.hunt (k : AsyncLink) : AsyncLink := { k with phase := .hunting, receipt := [] }

/-- An interval agrees with the mean of the four, a quarter of the span, within one eighth of it (R166). -/
def agreesWithMean (span i : Nat) : Bool := 8 * ((4 * i : Int) - span).natAbs ≤ span

/-- A lead pattern: the four intervals agree, and no further falling edge comes sooner than seven eighths of one mean interval
after the fifth (R166). -/
def isLeadPattern (i1 i2 i3 i4 : Nat) (nextEdge : Option Nat) : Bool :=
  let span := i1 + i2 + i3 + i4
  agreesWithMean span i1 && agreesWithMean span i2 && agreesWithMean span i3 && agreesWithMean span i4
    && match nextEdge with | none => true | some t => decide (7 * span ≤ 32 * t)

/-- A measured rate from 1200 to 230400 bit/s: 8 bits in `span` ns (R166). -/
def goodSpan (span : Nat) : Bool := 1200 * span ≤ 8000000000 && 8000000000 ≤ 230400 * span

/-- The committed rate mode is TRACKING (R167). -/
def State.tracking (s : State) : Bool := s.config.committed.rateMode == 1

/-- A lead pattern of a given span (R166, R167). -/
def State.leadSeen (s : State) (span : Nat) : State :=
  let locked := s.onPortC fun k => { k with rateSpan := some span }.startFrame s.nowTick
  match s.portC.rateSpan, s.portC.phase with
  | none, _ => if goodSpan span then locked else s
  | some _, .hunting =>
    if !s.tracking then s
    else if goodSpan span then locked
    else s.onPortC fun k => k.onCounters LinkCounters.addBadLead
  | some _, .inFrame => s

/-- LEAD_PATTERN: the edges of RXD (R166). Edges that form no lead pattern are no lead. -/
def execLeadPattern (i1 i2 i3 i4 : Nat) (nextEdge : Option Nat) (s : State) : Host.Outcome State Fault Refusal :=
  s.whenRunning fun s => if isLeadPattern i1 i2 i3 i4 nextEdge then s.leadSeen (i1 + i2 + i3 + i4) else s

/-! ### Port C: bytes (R167, R168) -/

/-- A complete byte while hunting: in FIXED a $55 starts a frame; any other counts BAD_LEAD (R167, R168, log 20). -/
def State.huntByte (s : State) (b : Byte) : State :=
  if !s.tracking && b == requestLead then s.onPortC fun k => k.startFrame s.nowTick
  else s.onPortC fun k => k.onCounters LinkCounters.addBadLead

/-- A complete byte in a frame (R168). -/
def State.frameByte (s : State) (b : Byte) : State :=
  let bytes := s.portC.receipt ++ [b]
  match readReceipt bytes with
  | .more => s.onPortC fun k => { k with receipt := bytes, lastByte := s.nowTick }
  | .tooLong => s.onPortC fun k => (k.onCounters LinkCounters.addLength).hunt
  | .complete f => (s.onPortC AsyncLink.hunt).arrive .c f

/-- A byte received on port C at the locked bit time, with the level its stop bit was sampled at (R167, R168). -/
def State.receiveByte (s : State) (b : Byte) (stopHigh : Bool) : State :=
  match s.portC.rateSpan, s.portC.phase with
  | none, _ => s
  | some _, .hunting => if stopHigh then s.huntByte b else s
  | some _, .inFrame => if stopHigh then s.frameByte b else s.onPortC fun k => (k.onCounters LinkCounters.addCut).hunt

/-- PORT_C_BYTE (R168). While the rate is UNLOCKED no byte is received (R166). -/
def execPortCByte (b : Byte) (stopHigh : Bool) (s : State) : Host.Outcome State Fault Refusal :=
  s.whenRunning fun s => s.receiveByte b stopHigh

/-! ### The gap of 8 ms (R163, R168) -/

/-- The longest gap within a request frame, in ms. -/
abbrev gapMs : Nat := 8

/-- The gap is over on port A or B: TIMEOUT counts, and the rest of the transaction is ignored (R163). -/
def State.syncGap (s : State) (p : SyncId) : State :=
  let k := s.links.get p
  if k.phase = .request ∧ reached s.nowTick (afterMs k.lastByte gapMs) = true then
    s.onLink p fun k => (k.onCounters LinkCounters.addTimeout).ignoreRest
  else s

/-- The gap is over on port C (R168). That no start bit has begun meanwhile is the sender's word, since no command is a start bit; the part
adds only that 8 ticks have passed since the last byte ended (log 34). -/
def State.asyncGap (s : State) : State :=
  if s.portC.phase = .inFrame ∧ reached s.nowTick (afterMs s.portC.lastByte gapMs) = true then
    s.onPortC fun k => (k.onCounters LinkCounters.addTimeout).hunt
  else s

/-- FRAME_GAP_TIMEOUT (R163, R168), with the 8 ms counted in ticks (log 7). On port C the sender brings it when no start bit has begun in
them (log 34). -/
def execFrameGapTimeout (p : Port) (s : State) : Host.Outcome State Fault Refusal :=
  s.whenRunning fun s =>
    match p with
    | .a => s.syncGap .a
    | .b => s.syncGap .b
    | .c => s.asyncGap

/-! ### Port C: the end of a response, and the break (R169, R170) -/

/-- A response on port C is delivered (R149, R169): the RESTART it may answer happens, else a held frame is taken. -/
def State.responseDelivered (s : State) (r : Response) : State :=
  if r.restartOk then s.restartNow
  else
    match s.portC.held with
    | none => s.onPortC fun k => { k with sending := none }
    | some h => (s.onPortC fun k => { k with sending := none, held := none }).takeRequestFrame .c h.deadline h.frame

/-- RESPONSE_SENT (R169). With nothing being sent there is nothing to end. -/
def execResponseSent (s : State) : Host.Outcome State Fault Refusal :=
  s.whenRunning fun s =>
    match s.portC.sending with
    | none => s
    | some r => s.responseDelivered r

/-- Steps 2 to 5 of a break (R170). -/
def AsyncLink.broken (k : AsyncLink) : AsyncLink :=
  { k with
    counters := .zero, overlap := 0, rateSpan := none, phase := .hunting, receipt := [], sending := none, held := none }

/-- BREAK (R170): the session of port C ends with PORT_RESET, if there is one, and the link starts over. -/
def execLineBreak (s : State) : Host.Outcome State Fault Refusal :=
  s.whenRunning fun s =>
    (if (s.session .c).isSome then (s.endSession .c .portReset).1 else s).onPortC AsyncLink.broken

end Sys2Proof.Machine
end

