-- ==== Sys2Proof/Machine/Dispatch.lean ====
section
/-! DEFINITION. The commands, one arm each. -/

namespace Sys2Proof.Machine

def exec (i : Instr) (s : State) : Host.Outcome State Fault Refusal :=
  match i with
  | .powerOnReset => Sys2Proof.Machine.execPowerOnReset s
  | .pinReset => Sys2Proof.Machine.execPinReset s
  | .frameTaken u ia ib => Sys2Proof.Machine.execFrameTaken u ia ib s
  | .detectorClose => Sys2Proof.Machine.execDetectorClose s
  | .energyClose => Sys2Proof.Machine.execEnergyClose s
  | .pulseHighEnd engine => Sys2Proof.Machine.execPulseHighEnd engine s
  | .pulseGapEnd engine => Sys2Proof.Machine.execPulseGapEnd engine s
  | .energyConfig => Sys2Proof.Machine.execEnergyConfig s
  | .energyFault => Sys2Proof.Machine.execEnergyFault s
  | .captureFrame => Sys2Proof.Machine.execCaptureFrame s
  | .captureTrigger => Sys2Proof.Machine.execCaptureTrigger s
  | .xtrigInEdge high => Sys2Proof.Machine.execXtrigInEdge high s
  | .xtrigOutPulseEnd => Sys2Proof.Machine.execXtrigOutPulseEnd s
  | .captureConfig => Sys2Proof.Machine.execCaptureConfig s
  | .captureTokenFree => Sys2Proof.Machine.execCaptureTokenFree s
  | .journalAppend source => Sys2Proof.Machine.execJournalAppend source s
  | .leaseExpiry => Sys2Proof.Machine.execLeaseExpiry s
  | .leaseWarnStart => Sys2Proof.Machine.execLeaseWarnStart s
  | .integrityScrub => Sys2Proof.Machine.execIntegrityScrub s
  | .idleExpiry port => Sys2Proof.Machine.execIdleExpiry port s
  | .restartTimeout => Sys2Proof.Machine.execRestartTimeout s
  | .selectFall port => Sys2Proof.Machine.execSelectFall port s
  | .selectRise port => Sys2Proof.Machine.execSelectRise port s
  | .firstByte port byte => Sys2Proof.Machine.execFirstByte port byte s
  | .requestByte port byte => Sys2Proof.Machine.execRequestByte port byte s
  | .fetchByte port => Sys2Proof.Machine.execFetchByte port s
  | .frameGapTimeout port => Sys2Proof.Machine.execFrameGapTimeout port s
  | .leadPattern i1 i2 i3 i4 nextEdge => Sys2Proof.Machine.execLeadPattern i1 i2 i3 i4 nextEdge s
  | .portCByte byte stopHigh => Sys2Proof.Machine.execPortCByte byte stopHigh s
  | .responseSent => Sys2Proof.Machine.execResponseSent s
  | .lineBreak => Sys2Proof.Machine.execLineBreak s
  | .badFrame port tag code payload check => Sys2Proof.Machine.execBadFrame port tag code payload check s
  | .openSession port tag start retention => Sys2Proof.Machine.execOpenSession port tag start retention s
  | .closeSession port tag => Sys2Proof.Machine.execCloseSession port tag s
  | .portStatus port tag clear => Sys2Proof.Machine.execPortStatus port tag clear s
  | .setAttention port tag mask watermark => Sys2Proof.Machine.execSetAttention port tag mask watermark s
  | .attentionStatus port tag => Sys2Proof.Machine.execAttentionStatus port tag s
  | .setSubscription port tag mask => Sys2Proof.Machine.execSetSubscription port tag mask s
  | .setRetention port tag retention => Sys2Proof.Machine.execSetRetention port tag retention s
  | .readEntries port tag countAndAck => Sys2Proof.Machine.execReadEntries port tag countAndAck s
  | .ackEntries port tag seq => Sys2Proof.Machine.execAckEntries port tag seq s
  | .rewind port tag => Sys2Proof.Machine.execRewind port tag s
  | .journalStatus port tag => Sys2Proof.Machine.execJournalStatus port tag s
  | .appendNote port tag data => Sys2Proof.Machine.execAppendNote port tag data s
  | .captureNow port tag => Sys2Proof.Machine.execCaptureNow port tag s
  | .captureList port tag => Sys2Proof.Machine.execCaptureList port tag s
  | .readFrames port tag id part offset count => Sys2Proof.Machine.execReadFrames port tag id part offset count s
  | .releaseCapture port tag id => Sys2Proof.Machine.execReleaseCapture port tag id s
  | .storeStatus port tag id => Sys2Proof.Machine.execStoreStatus port tag id s
  | .readEnergy port tag => Sys2Proof.Machine.execReadEnergy port tag s
  | .markBaseline port tag mask => Sys2Proof.Machine.execMarkBaseline port tag mask s
  | .snapshot port tag => Sys2Proof.Machine.execSnapshot port tag s
  | .readSnapshot port tag => Sys2Proof.Machine.execReadSnapshot port tag s
  | .pulseStatus port tag => Sys2Proof.Machine.execPulseStatus port tag s
  | .leaseTake port tag seconds wait => Sys2Proof.Machine.execLeaseTake port tag seconds wait s
  | .leaseRelease port tag => Sys2Proof.Machine.execLeaseRelease port tag s
  | .leaseStatus port tag => Sys2Proof.Machine.execLeaseStatus port tag s
  | .stageWrite port tag sec record field value => Sys2Proof.Machine.execStageWrite port tag sec record field value s
  | .stageRead port tag sec record field => Sys2Proof.Machine.execStageRead port tag sec record field s
  | .configRead port tag sec record field => Sys2Proof.Machine.execConfigRead port tag sec record field s
  | .commit port tag => Sys2Proof.Machine.execCommit port tag s
  | .discard port tag => Sys2Proof.Machine.execDiscard port tag s
  | .clearTally port tag mask => Sys2Proof.Machine.execClearTally port tag mask s
  | .restart port tag generation => Sys2Proof.Machine.execRestart port tag generation s
  | .defineReadSet port tag codes => Sys2Proof.Machine.execDefineReadSet port tag codes s
  | .readSet port tag => Sys2Proof.Machine.execReadSet port tag s
  | .detectorStatus port tag => Sys2Proof.Machine.execDetectorStatus port tag s
  | .tickCount => Sys2Proof.Machine.execTickCount s
  | .resetRelease => Sys2Proof.Machine.execResetRelease s

end Sys2Proof.Machine
end

