-- ==== Sys2Proof/WellFormed.lean ====
section
/-! DEFINITION. Which commands can be spelt at all: a request frame carries at most 60 payload bytes (10.5), and the
intervals between falling edges of RXD last some time (R166). Everything else is a matter of the rules, not of form. -/

namespace Sys2Proof

/-- The longest payload a request frame can carry (R163, R168, 10.5). -/
abbrev maxRequestPayload : Nat := 60

/-- A payload that fits a request frame. -/
abbrev payloadFits (bytes : List Byte) : Bool := decide (bytes.length ≤ maxRequestPayload)

/-- The form of a command. -/
def Instr.wellFormed : Instr → Bool
  | .badFrame _ _ _ payload _ => payloadFits payload
  | .appendNote _ _ data => payloadFits data
  | .defineReadSet _ _ codes => payloadFits codes
  | .leadPattern i1 i2 i3 i4 next =>
      decide (0 < i1) && decide (0 < i2) && decide (0 < i3) && decide (0 < i4) && decide (next ≠ some 0)
  | _ => true

/-- The form of a request: its payload fits a request frame, and a note carries the 16 bytes its code takes (R40), a read
set at most the 12 codes its code takes (R175). -/
def Request.wellFormed : Request → Bool
  | .appendNote data => decide (data.length = 16)
  | .defineReadSet codes => decide (codes.length ≤ 12)
  | _ => true

end Sys2Proof
end

