-- ==== Sys2Proof/Safety.lean ====
section
/-! DEFINITION. The terms in which claims speak: the command that a request is, what lets a port's request be taken, what taking
one leaves on its port, and the laws that every step keeps. -/

namespace Sys2Proof.Machine

/-! ### Requests as commands -/

/-- The command that a request is: its good frame with a tag, complete on a port. -/
def commandOf (port : Port) (tag : Byte) : Request → Instr
  | .openSession start retention => .openSession port tag start retention
  | .closeSession => .closeSession port tag
  | .portStatus clear => .portStatus port tag clear
  | .setAttention mask watermark => .setAttention port tag mask watermark
  | .attentionStatus => .attentionStatus port tag
  | .setSubscription mask => .setSubscription port tag mask
  | .setRetention retention => .setRetention port tag retention
  | .readEntries countAndAck => .readEntries port tag countAndAck
  | .ackEntries seq => .ackEntries port tag seq
  | .rewind => .rewind port tag
  | .journalStatus => .journalStatus port tag
  | .appendNote data => .appendNote port tag data
  | .captureNow => .captureNow port tag
  | .captureList => .captureList port tag
  | .readFrames id part offset count => .readFrames port tag id part offset count
  | .releaseCapture id => .releaseCapture port tag id
  | .storeStatus id => .storeStatus port tag id
  | .readEnergy => .readEnergy port tag
  | .markBaseline mask => .markBaseline port tag mask
  | .snapshot => .snapshot port tag
  | .readSnapshot => .readSnapshot port tag
  | .pulseStatus => .pulseStatus port tag
  | .leaseTake seconds wait => .leaseTake port tag seconds wait
  | .leaseRelease => .leaseRelease port tag
  | .leaseStatus => .leaseStatus port tag
  | .stageWrite sec record field value => .stageWrite port tag sec record field value
  | .stageRead sec record field => .stageRead port tag sec record field
  | .configRead sec record field => .configRead port tag sec record field
  | .commit => .commit port tag
  | .discard => .discard port tag
  | .clearTally mask => .clearTally port tag mask
  | .restart generation => .restart port tag generation
  | .defineReadSet codes => .defineReadSet port tag codes
  | .readSet => .readSet port tag
  | .detectorStatus => .detectorStatus port tag

/-- The port, the tag and the request of a command that is a request. -/
def asRequest : Instr → Option (Port × Byte × Request)
  | .powerOnReset => none
  | .pinReset => none
  | .frameTaken _ _ _ => none
  | .detectorClose => none
  | .energyClose => none
  | .pulseHighEnd _ => none
  | .pulseGapEnd _ => none
  | .energyConfig => none
  | .energyFault => none
  | .captureFrame => none
  | .captureTrigger => none
  | .xtrigInEdge _ => none
  | .xtrigOutPulseEnd => none
  | .captureConfig => none
  | .captureTokenFree => none
  | .journalAppend _ => none
  | .leaseExpiry => none
  | .leaseWarnStart => none
  | .integrityScrub => none
  | .idleExpiry _ => none
  | .restartTimeout => none
  | .selectFall _ => none
  | .selectRise _ => none
  | .firstByte _ _ => none
  | .requestByte _ _ => none
  | .fetchByte _ => none
  | .frameGapTimeout _ => none
  | .leadPattern _ _ _ _ _ => none
  | .portCByte _ _ => none
  | .responseSent => none
  | .lineBreak => none
  | .badFrame _ _ _ _ _ => none
  | .openSession port tag start retention => some (port, tag, .openSession start retention)
  | .closeSession port tag => some (port, tag, .closeSession)
  | .portStatus port tag clear => some (port, tag, .portStatus clear)
  | .setAttention port tag mask watermark => some (port, tag, .setAttention mask watermark)
  | .attentionStatus port tag => some (port, tag, .attentionStatus)
  | .setSubscription port tag mask => some (port, tag, .setSubscription mask)
  | .setRetention port tag retention => some (port, tag, .setRetention retention)
  | .readEntries port tag countAndAck => some (port, tag, .readEntries countAndAck)
  | .ackEntries port tag seq => some (port, tag, .ackEntries seq)
  | .rewind port tag => some (port, tag, .rewind)
  | .journalStatus port tag => some (port, tag, .journalStatus)
  | .appendNote port tag data => some (port, tag, .appendNote data)
  | .captureNow port tag => some (port, tag, .captureNow)
  | .captureList port tag => some (port, tag, .captureList)
  | .readFrames port tag id part offset count => some (port, tag, .readFrames id part offset count)
  | .releaseCapture port tag id => some (port, tag, .releaseCapture id)
  | .storeStatus port tag id => some (port, tag, .storeStatus id)
  | .readEnergy port tag => some (port, tag, .readEnergy)
  | .markBaseline port tag mask => some (port, tag, .markBaseline mask)
  | .snapshot port tag => some (port, tag, .snapshot)
  | .readSnapshot port tag => some (port, tag, .readSnapshot)
  | .pulseStatus port tag => some (port, tag, .pulseStatus)
  | .leaseTake port tag seconds wait => some (port, tag, .leaseTake seconds wait)
  | .leaseRelease port tag => some (port, tag, .leaseRelease)
  | .leaseStatus port tag => some (port, tag, .leaseStatus)
  | .stageWrite port tag sec record field value => some (port, tag, .stageWrite sec record field value)
  | .stageRead port tag sec record field => some (port, tag, .stageRead sec record field)
  | .configRead port tag sec record field => some (port, tag, .configRead sec record field)
  | .commit port tag => some (port, tag, .commit)
  | .discard port tag => some (port, tag, .discard)
  | .clearTally port tag mask => some (port, tag, .clearTally mask)
  | .restart port tag generation => some (port, tag, .restart generation)
  | .defineReadSet port tag codes => some (port, tag, .defineReadSet codes)
  | .readSet port tag => some (port, tag, .readSet)
  | .detectorStatus port tag => some (port, tag, .detectorStatus)
  | .tickCount => none
  | .resetRelease => none

/-! ### Taking a request -/

/-- A request that is complete on the port is taken at once and passes the second general check: the part runs, no restart is
pending, and on port C the transmitter is IDLE (R161, R169, R175). -/
def State.readyFor (s : State) (p : Port) : Prop :=
  s.pins.resetLow = false ∧ s.config.restartDue = none ∧ (p = .c → s.portC.sending = none)

/-- A port's session with the idle deadline that a frame complete now gives it (R174). -/
def State.touched (s : State) (p : Port) (x : Session) : Session := { x with idleDeadline := s.deadlineFrom p }

/-- A state after its port has been answered (R161, R164, R169, R181) and the lines driven (R158). -/
def State.replied (s : State) (p : Port) (tag : Byte) (r : Reply) : State := (s.answer p (responseOf tag r)).drive

/-- The same, after a request that leaves everything but its session's deadline as it is. -/
def State.onlyReplied (s : State) (p : Port) (tag : Byte) (x : Session) (r : Reply) : State :=
  (s.setSession p (some (s.touched p x))).replied p tag r

/-! ### The law of the journal (R1) -/

/-- The sequence number assigned before another: zero is skipped. -/
def seqPred (x : W32) : W32 := if x = 1 then 0xFFFFFFFF else x - 1

/-- The n sequence numbers before `next`, oldest first. -/
def seqsBefore : W32 → Nat → List W32
  | _, 0 => []
  | next, n + 1 => seqsBefore (seqPred next) n ++ [seqPred next]

/-- Between 1 and 384 entries, with consecutive sequence numbers of which the newest is `next_seq` minus one (R1). -/
def Journal.Law (j : Journal) : Prop :=
  j.entries ≠ [] ∧ j.entries.length ≤ journalCapacity ∧ j.nextSeq ≠ 0
    ∧ j.entries.map Entry.seq = seqsBefore j.nextSeq j.entries.length

/-! ### The law of the readers (R3, R24) -/

/-- The ack point at or after the oldest stored entry, the cursor at or after the ack point and at or before `next_seq`; SYSTEM in
the mask. -/
def Session.Law (x : Session) (j : Journal) : Prop :=
  x.cursor ≠ 0 ∧ x.ackPoint ≠ 0 ∧ distance j.nextSeq x.cursor ≤ distance j.nextSeq x.ackPoint
    ∧ distance j.nextSeq x.ackPoint ≤ j.entries.length ∧ maskHas x.mask .system = true

def State.ReadersLaw (s : State) : Prop := ∀ p x, s.session p = some x → x.Law s.journal

/-! ### The law of what one session has alone (R26, R132) -/

/-- The HOLD token is free or held by an open session (R26). -/
def State.TokenLaw (s : State) : Prop := ∀ p, s.token = some p → (s.session p).isSome = true

/-- The lease is held by an open session; at most two distinct other open sessions wait, and none while the lease is FREE
(R132). -/
def State.LeaseLaw (s : State) : Prop :=
  (∀ t, s.lease = some t → (s.session t.holder).isSome = true ∧ t.holder ∉ s.queue.map Waiter.host)
    ∧ (s.lease = none → s.queue = []) ∧ (s.queue.map Waiter.host).Nodup ∧ s.queue.length ≤ 2
    ∧ ∀ w ∈ s.queue, (s.session w.host).isSome = true

/-! ### The law of the slots (R83, R84, R97) -/

/-- The slots in use beside the sealed captures': the LIVE slot, or the recording capture's. -/
def StoreMode.slots : StoreMode → List SlotId
  | .live slot _ => [slot]
  | .post c => c.slots
  | .disarmed => []
  | .starved => []

/-- Every slot is FREE, LIVE, or in the slot list of exactly one capture, each of which has one (R83, R84); in STARVED every slot is SEALED
(R97). -/
def CaptureStore.SlotLaw (st : CaptureStore) : Prop :=
  (st.sealedCaptures.flatMap Capture.slots ++ st.mode.slots).Nodup ∧ (∀ c ∈ st.table, c.slots ≠ [])
    ∧ (st.mode = .starved → ∀ k : SlotId, k ∈ st.sealedCaptures.flatMap Capture.slots)

/-! ### Reclaiming (R96) -/

/-- The capture is held by the HOLD session, so that it is not reclaimed (R96). -/
def Capture.HeldByHold (token : Option Port) (c : Capture) : Prop := ∃ p, token = some p ∧ c.holders.get p = true

/-- The capture that is reclaimed of a seal order: the earliest with no holders, or, where each has holders, the earliest of those whose
holders are all in YIELD (R96, steps 2 and 3). -/
def Capture.Reclaimed (token : Option Port) (sealOrder : List Capture) (c : Capture) : Prop :=
  ∃ before after, sealOrder = before ++ c :: after
    ∧ ((c.holders = PerPort.all false ∧ ∀ b ∈ before, b.holders ≠ PerPort.all false)
      ∨ ((∀ b ∈ sealOrder, b.holders ≠ PerPort.all false) ∧ ¬ c.HeldByHold token ∧ ∀ b ∈ before, b.HeldByHold token))

/-- The lowest-numbered of some slots. -/
def IsLowest (slots : List SlotId) (i : SlotId) : Prop := i ∈ slots ∧ ∀ k ∈ slots, i ≤ k

/-- A trigger that the store may take next, and what else then waits: no trigger of its origin was handed before it (R73), and, if it is
the Detector Bank's, no frame with an hc one less than its own, the last of which made its close (R44, R47); any other frame and any trigger
of another origin may be taken before it or after it (R91). -/
def MayTake (inbox : List CapEvent) (g : WaitingTrigger) (rest : List CapEvent) : Prop :=
  ∃ before after, inbox = before ++ CapEvent.trigger g.source g.tick g.hc :: after ∧ rest = before ++ after
    ∧ (∀ source tick hc, CapEvent.trigger source tick hc ∈ before → source.origin ≠ g.source.origin)
    ∧ (g.source.origin = .detectorBank → ∀ f, CapEvent.frame f ∈ before → f.hc + 1 ≠ g.hc)

/-- What reclaiming a capture does: its record leaves the seal order, CAPTURE_RECLAIMED is handed to the journal with its holders, and
each of them that is open has its CAPTURE_RECLAIMED latched (R96). -/
def State.withReclaimed (s : State) (c : Capture) (tick hc : W32) : State :=
  { s with
    store := { s.store with sealedCaptures := s.store.sealedCaptures.filter fun x => decide (x.id ≠ c.id) }
    journal := { s.journal with waiting := s.journal.waiting ++ [⟨.captureStore, tick, hc, .captureReclaimed c.id c.holders⟩] }
    sessions := s.sessions.mapWith fun p x => x.map fun y =>
      if c.holders.get p then { y with latches := { y.latches with captureReclaimed := true } } else y }

/-! ### The end of a session (R26, R99, R136, R137, R173) -/

/-- The entries that appends of these ticks, half-cycle counts and bodies become when they are stored one after another, the first with
the sequence number `next` (R10). -/
def entriesFrom : W32 → List (W32 × W32 × EntryBody) → List Entry
  | _, [] => []
  | next, (tick, hc, body) :: rest => { seq := next, tick := tick, hc := hc, body := body } :: entriesFrom (seqSucc next) rest

/-- The HOLD token when a session has ended (R26). -/
def State.tokenWithout (s : State) (p : Port) : Option Port := if s.token = some p then none else s.token

/-- The seal order when a session has left every holder set (R99). -/
def State.capturesWithout (s : State) (p : Port) : List Capture :=
  s.store.sealedCaptures.map fun c => { c with holders := c.holders.set p false }

/-- What the store reclaims, and the slot it takes, when the end of a session lets it try again: nothing, unless it is STARVED, and then
nothing if the HOLD session still holds every capture (R96, R97, R99). -/
def State.RetryAtEnd (s : State) (p : Port) : Option (Capture × SlotId) → Prop
  | none => s.store.mode ≠ .starved
      ∨ ((∀ k : SlotId, k ∈ s.store.sealedCaptures.flatMap Capture.slots)
        ∧ ∀ c ∈ s.capturesWithout p, c.HeldByHold (s.tokenWithout p))
  | some (c, i) => s.store.mode = .starved ∧ (∀ k : SlotId, k ∈ s.store.sealedCaptures.flatMap Capture.slots)
      ∧ c.Reclaimed (s.tokenWithout p) (s.capturesWithout p) ∧ IsLowest c.slots i

/-- The lease and the queue when a session has ended (R136, R137): a lease it held is FREE, or the first waiter's, with a fresh expiry and
stage; a lease it did not hold stays, and its place in the queue goes. -/
def State.leaseWithout (s : State) (p : Port) : Option Tenure × List Waiter :=
  match s.lease with
  | none => (none, s.queue.filter fun w => decide (w.host ≠ p))
  | some t =>
    if t.holder ≠ p then (some t, s.queue.filter fun w => decide (w.host ≠ p))
    else
      match s.queue with
      | [] => (none, [])
      | w :: rest =>
        (some { holder := w.host, expiry := s.front.tick + BitVec.ofNat 32 (1000 * w.seconds), stage := s.config.committed }, rest)

/-- The waiter that the lease passes to when a session ends (R137). -/
def State.grantedAtEnd (s : State) (p : Port) : Option Port :=
  match s.lease with
  | none => none
  | some t => if t.holder = p then s.queue.head?.map Waiter.host else none

/-- The entries that the end of a session's tenure hands to the journal: FORFEITED, and the grant that follows (R136, R137). -/
def State.leaseEntriesAtEnd (s : State) (p : Port) : List EntryBody :=
  match s.lease with
  | none => []
  | some t =>
    if t.holder = p then .leaseEvent .forfeited p :: (s.grantedAtEnd p).toList.map fun w => .leaseEvent .granted w else []

/-! ### The law of the counters -/

def LinkCounters.Bounded (c : LinkCounters) : Prop :=
  c.badLead ≤ limit8 ∧ c.cut ≤ limit8 ∧ c.timeout ≤ limit8 ∧ c.length ≤ limit8 ∧ c.checkFail ≤ limit8

def Detector.Bounded (x : Detector) : Prop :=
  x.age ≤ limit24 ∧ x.span ≤ limit24 ∧ x.tallyCount ≤ limit16 ∧ x.tallySum ≤ limit24

def PulseEngine.Bounded (x : PulseEngine) : Prop := x.pending ≤ pendingLimit ∧ x.lost ≤ limit16

/-- Every saturating counter is within its range (conventions of 00_scope.md): those of the links, the loss tally, the readers, the
captures, the detectors and the pulse engines. -/
def State.Bounded (s : State) : Prop :=
  (∀ k, (s.links.get k).counters.Bounded ∧ (s.links.get k).unfetched ≤ limit8)
    ∧ s.portC.counters.Bounded ∧ s.portC.overlap ≤ limit8
    ∧ (∀ c, s.journal.tally.counts.get c ≤ limit16)
    ∧ (∀ p x, s.session p = some x → x.overrunCount ≤ limit16)
    ∧ (∀ d, (s.det.dets.get d).Bounded) ∧ (∀ e, (s.energy.engines.get e).Bounded) ∧ ∀ c ∈ s.store.table, c.extra ≤ limit8

/-! ### Resets -/

/-- The commands in which a reset may come (R21, R149). -/
def mayReset : Instr → Bool
  | .powerOnReset => true
  | .pinReset => true
  | .restartTimeout => true
  | .fetchByte _ => true
  | .responseSent => true
  | _ => false

end Sys2Proof.Machine
end

