-- ==== Sys2Proof/Certificates/Slice0/Obligations.lean ====
section
/-! DEFINITION. The statements for the provers, family by family. Each says in its docstring what of the spec it formalises; where it rests
on a choice of the model it names the log entry. -/

section
open Sys2Proof Sys2Proof.Machine

/-! ### The whole machine -/

/-- A step takes the command at the front of the queue and runs it on the state with the queue's rest; on an empty queue the part idles
(the model's choice, log 22). -/
def Obligations.StepRunsFrontCommand : Prop :=
  (∀ (c : Instr) (rest : List Instr) (s : State), step (s.setPending (c :: rest)) = exec c (s.setPending rest))
    ∧ ∀ s : State, s.pending = [] → step s = .next s

/-- No command stops the part, and none but the sender touches the queue of commands (log 1). -/
def Obligations.EveryCommandGoesOn : Prop :=
  ∀ (c : Instr) (s : State), ∃ t, exec c s = .next t ∧ t.pending = s.pending

/-- R158: after every command, ATTN_x is low if and only if port x's session is open and some cause is both in its cause set and in its
attention mask; while RESET is held low all lines are high (R159). -/
def Obligations.LinesFollowCauses : Prop :=
  ∀ (c : Instr) (s t : State) (p : Port), exec c s = .next t →
    (t.attnLow.get p = true ↔
      t.pins.resetLow = false ∧ ∃ x, t.session p = some x
        ∧ ∃ n < 8, (t.causeSet p x).getLsbD n = true ∧ x.attnMask.getLsbD n = true)

/-- R151, R152, R153: the cause set holds the five latches and the three level causes as they stand. -/
def Obligations.CauseSetBits : Prop :=
  ∀ (s : State) (p : Port) (x : Session),
    ((s.causeSet p x).getLsbD 0 = true ↔ x.watermark ≤ x.deliverableCount s.journal)
    ∧ (s.causeSet p x).getLsbD 1 = x.latches.overrun
    ∧ (s.causeSet p x).getLsbD 2 = x.latches.leaseGranted
    ∧ ((s.causeSet p x).getLsbD 3 = true ↔
        ∃ t, s.lease = some t ∧ t.holder = p ∧ remainingMs s.front.tick t.expiry ≤ 2000)
    ∧ (s.causeSet p x).getLsbD 4 = x.latches.captureReclaimed
    ∧ (s.causeSet p x).getLsbD 5 = x.latches.pulseLost
    ∧ (s.causeSet p x).getLsbD 6 = x.latches.snapshotDone
    ∧ (s.causeSet p x).getLsbD 7 = s.config.fault

/-- R11, R46: the epoch and the commands' time change at resets, and the tick counter else by TICK_COUNT alone, which changes nothing
else. -/
def Obligations.TickAndEpoch : Prop :=
  (∀ (c : Instr) (s t : State), exec c s = .next t → mayReset c = false → t.journal.epoch = s.journal.epoch)
    ∧ (∀ (c : Instr) (s t : State), exec c s = .next t → mayReset c = false → c ≠ .tickCount → t.front.tick = s.front.tick)
    ∧ ∀ s : State, s.pins.resetLow = false →
        exec .tickCount s = .next { s with front := { s.front with tick := s.front.tick + 1 } }.drive

/-! ### Resets -/

/-- What a power-on reset leaves, block by block (R22, R60, R82, R106, R127, R150, R160), but for the levels of the pins and the count of
draws, which are the model's choice (log 2, 10), and for the tick of the last byte and the fetch position of a port, which nothing reads before
they are written (log 23). The kept level of XTRIG_IN is the pin's (R92). -/
def Obligations.ResetState : Prop :=
  State.reset.journal =
      { entries := [{ seq := 1, tick := 0, hc := 0, body := .restart .powerOn 1 }], nextSeq := 2, epoch := 1
        tally := { counts := PerClass.all 0, first := 0, last := 0 }, waiting := [] }
    ∧ (∀ p, State.reset.session p = none) ∧ State.reset.token = none
    ∧ State.reset.front.tick = 0 ∧ State.reset.front.hc = 0 ∧ State.reset.front.lineState = .acquiring
    ∧ State.reset.front.genuineRun = 0 ∧ State.reset.front.wait = .timeout ∧ State.reset.front.opened = .empty
    ∧ State.reset.front.prevNegative = none ∧ State.reset.front.uHistory = List.replicate 32 0
    ∧ State.reset.front.s0 = frontDefaults
    ∧ State.reset.front.image =
        { summary :=
            { hc := 0, polarity := .noSign, n := 0, synthetic := false, uRms := 0, iaRms := 0, ibRms := 0, residRms := 0, uPeak := 0
              iaPeak := 0, ibPeak := 0, pA := 0, pB := 0, qA := 0, qB := 0, sA := 0, sB := 0 }
          closeTick := 0, lineState := .acquiring }
    ∧ (∀ d, State.reset.det.dets.get d =
        { state := .idle, run := 0, cfg := detDefaults.get d, episode := 0, startHc := 0, extreme := 0, age := 0, span := 0
          tallyCount := 0, tallySum := 0 })
    ∧ State.reset.det.nextEpisode = 1 ∧ State.reset.det.inbox = []
    ∧ State.reset.store.mode = .live 0 [] ∧ State.reset.store.sealedCaptures = [] ∧ State.reset.store.nextId = 1
    ∧ State.reset.store.s2 = capDefaults ∧ State.reset.store.xtrigOut = none ∧ State.reset.store.inbox = []
    ∧ State.reset.store.xtrigLevel = State.reset.pins.xtrigInHigh
    ∧ (∀ a, State.reset.energy.acc.get a = { value := 0, residue := 0, gate := .running, creepRun := 0, lastHc := 0 })
    ∧ (∀ e, State.reset.energy.engines.get e = { residue := 0, pending := 0, lost := 0, phase := .idle })
    ∧ State.reset.energy.s3 = energyDefaults ∧ State.reset.energy.pendingSnapshot = none
    ∧ State.reset.energy.nextSnapshot = 1
    ∧ State.reset.energy.lastSnapshot =
        { id := 0, tick := 0, hc := 0, requesters := PerPort.all false, values := PerAcc.all 0 }
    ∧ State.reset.energy.lastCloseHc = 0 ∧ State.reset.energy.closes = [] ∧ State.reset.energy.handed = []
    ∧ State.reset.config.committed = Table.defaults ∧ State.reset.config.generation = 0
    ∧ State.reset.config.code = Table.defaults.code ∧ State.reset.config.fault = false
    ∧ State.reset.config.restartDue = none ∧ State.reset.config.nextScrub = 100
    ∧ State.reset.lease = none ∧ State.reset.queue = []
    ∧ (∀ k, (State.reset.links.get k).counters = { badLead := 0, cut := 0, timeout := 0, length := 0, checkFail := 0 }
        ∧ (State.reset.links.get k).unfetched = 0 ∧ (State.reset.links.get k).phase = .none
        ∧ (State.reset.links.get k).receipt = [] ∧ (State.reset.links.get k).pending = none ∧ (State.reset.links.get k).sdo = none)
    ∧ State.reset.portC.counters = { badLead := 0, cut := 0, timeout := 0, length := 0, checkFail := 0 }
    ∧ State.reset.portC.overlap = 0 ∧ State.reset.portC.rateSpan = none ∧ State.reset.portC.phase = .hunting
    ∧ State.reset.portC.receipt = [] ∧ State.reset.portC.sending = none ∧ State.reset.portC.held = none
    ∧ State.reset.attnLow = PerPort.all false ∧ State.reset.pending = []

/-- R11, R21, R22: POWER_ON_RESET brings the part to its power-on state whatever it was in; the pins are the outside's, and the kept
level of XTRIG_IN is the pin's (R92). -/
def Obligations.PowerOnReset : Prop :=
  ∀ s : State, exec .powerOnReset s = .next
    { State.reset with
      store := { State.reset.store with xtrigLevel := s.pins.xtrigInHigh }
      pins := s.pins, draws := s.draws, pending := s.pending }

/-- R11, R21, R22, R127, R150: a pin reset and a requested restart clear the journal to a RESTART entry with the next epoch, end every
session and every block's state, and keep S3, the accumulator values and residues and the pulse residues. A pin reset holds the part
until RESET is released, which takes the level of XTRIG_IN without an edge (R92). A restart timeout takes effect at its tick or later (log 6).
That the S3 in force becomes the committed S3 is the model's reading (log 17). -/
def Obligations.PinResetAndRestart : Prop :=
  (∀ s : State, s.pins.resetLow = false → ∃ t, exec .pinReset s = .next t ∧ t.pins = { s.pins with resetLow := true }
      ∧ t.journal.entries = [{ seq := 1, tick := 0, hc := 0, body := .restart .pin (idSucc s.journal.epoch) }]
      ∧ t = { State.afterReset .pin (idSucc s.journal.epoch) s.config.committed.energy
          (s.energy.acc.mapWith fun _ r => (r.value, r.residue)) (s.energy.engines.mapWith fun _ e => e.residue)
          t.pins s.draws s.pending with attnLow := PerPort.all false })
    ∧ (∀ (s : State) (due : W32), s.pins.resetLow = false → s.config.restartDue = some due → reached s.front.tick due = true →
        ∃ t, exec .restartTimeout s = .next t ∧ t.pins = s.pins
          ∧ t.journal.entries = [{ seq := 1, tick := 0, hc := 0, body := .restart .request (idSucc s.journal.epoch) }]
          ∧ t.journal.nextSeq = 2 ∧ t.journal.epoch = idSucc s.journal.epoch ∧ t.sessions = PerPort.all none ∧ t.token = none
          ∧ t.config.committed = { Table.defaults with energy := s.config.committed.energy }
          ∧ t.energy.s3 = s.config.committed.energy ∧ t.config.restartDue = none ∧ t.lease = none ∧ t.queue = []
          ∧ (∀ a, t.energy.acc.get a =
              { value := (s.energy.acc.get a).value, residue := (s.energy.acc.get a).residue, gate := .running, creepRun := 0
                lastHc := 0 })
          ∧ (∀ e, t.energy.engines.get e =
              { residue := (s.energy.engines.get e).residue, pending := 0, lost := 0, phase := .idle })
          ∧ t = { State.afterReset .request (idSucc s.journal.epoch) s.config.committed.energy
              (s.energy.acc.mapWith fun _ r => (r.value, r.residue)) (s.energy.engines.mapWith fun _ e => e.residue)
              s.pins s.draws s.pending with attnLow := PerPort.all false })
    ∧ ∀ s : State, s.pins.resetLow = true → exec .resetRelease s = .next
        { s with
          pins := { s.pins with resetLow := false }
          store := { s.store with xtrigLevel := s.pins.xtrigInHigh } }.drive

/-! ### The Front End (chapter 3) -/

/-- R44, R45, R48, R49: a frame that is no accepted crossing, with the open half-cycle below the wait limit, is handed to the Capture
Store with the counters as they stand, joins the open half-cycle, and leaves its sign and its U sample behind. -/
def Obligations.FrameJoins : Prop :=
  ∀ (u ia ib : W16) (s : State), s.pins.resetLow = false →
    let f := scaleFrame s.front.s0 ⟨u, ia, ib⟩
    (s.front.prevNegative = some (!decide (f.u.toInt < 0)) → s.front.opened.n < 32) →
    s.front.opened.n < waitLimit s.front.s0 s.front.wait →
    exec (.frameTaken u ia ib) s = .next
      { s with
        store := { s.store with inbox := s.store.inbox ++ [CapEvent.frame ⟨f, s.front.tick, s.front.hc⟩] }
        front := { s.front with
          opened := s.front.opened.join f (uQuarter s.front.s0 s.front.uHistory)
          prevNegative := some (decide (f.u.toInt < 0))
          uHistory := (f.u :: s.front.uHistory).take 32 } }.drive

/-- R48, R49, R50, R53: an accepted crossing with 32 frames or more makes a genuine close, a frame that finds the wait limit reached makes
a synthetic one. Either advances hc, replaces the read image, hands the summary to the Detector Bank and the Energy Block, takes the
committed S0, puts the deciding frame into the new half-cycle, and moves the line state and its run by LineStateTable, with that table's
LINE_EVENT at the close's hc. That the U history and the kept sign are of the deciding frame's first scaling is the model's reading of R52 and
the end of 3.3 (log 24). -/
def Obligations.FrameCloses : Prop :=
  ∀ (u ia ib : W16) (s : State), s.pins.resetLow = false →
    let fe := s.front
    let f := scaleFrame fe.s0 ⟨u, ia, ib⟩
    let negative := decide (f.u.toInt < 0)
    let genuine := fe.prevNegative == some (!negative) && decide (32 ≤ fe.opened.n)
    (genuine = true ∨ waitLimit fe.s0 fe.wait ≤ fe.opened.n) →
    let summary := fe.opened.summary (fe.hc + 1)
      (if genuine then (if negative then .pos else .neg) else .noSign) (!genuine)
    let line := lineAfter fe.lineState fe.genuineRun (!genuine)
    ∃ t, exec (.frameTaken u ia ib) s = .next t
      ∧ t.front.hc = fe.hc + 1 ∧ t.front.tick = fe.tick
      ∧ t.front.lineState = line.1 ∧ t.front.genuineRun = line.2.1
      ∧ t.front.image.summary = summary ∧ t.front.image.closeTick = fe.tick ∧ t.front.image.lineState = t.front.lineState
      ∧ t.front.s0 = s.config.committed.front ∧ t.front.wait = (if genuine then .timeout else .interval)
      ∧ t.front.opened = OpenHalfCycle.empty.join (scaleFrame s.config.committed.front ⟨u, ia, ib⟩)
          (uQuarter s.config.committed.front fe.uHistory)
      ∧ t.front.prevNegative = some negative ∧ t.front.uHistory = (f.u :: fe.uHistory).take 32
      ∧ t.det = { s.det with inbox := s.det.inbox ++ [⟨summary, fe.tick⟩] }
      ∧ t.energy = { s.energy with closes := s.energy.closes ++ [⟨summary, fe.tick⟩] }
      ∧ t.store = { s.store with inbox := s.store.inbox ++ [CapEvent.frame ⟨f, fe.tick, fe.hc⟩] }
      ∧ (line.2.2 = none → t.journal = s.journal)
      ∧ (∀ e, line.2.2 = some e → t.journal =
          { s.journal with waiting := s.journal.waiting ++ ([⟨.frontEnd, fe.tick, fe.hc + 1, .lineEvent e⟩] : List Append) })
      ∧ t = { s with
          front := t.front, det := t.det, energy := t.energy, store := t.store, journal := t.journal, attnLow := t.attnLow }

/-- R56, R57: in ACQUIRING and LOST four consecutive genuine closes lead to TRACKING with an event, a synthetic close breaks the run; in
TRACKING the first synthetic close leads to LOST with an event. That the run stands at 0 in TRACKING is the model's choice (log 16). -/
def Obligations.LineStateTable : Prop :=
  (∀ st run, st ≠ .tracking → run < 3 → lineAfter st run false = (st, run + 1, none))
    ∧ (∀ st, st ≠ .tracking → lineAfter st 3 false = (.tracking, 0, some .tracking))
    ∧ (∀ st run, st ≠ .tracking → lineAfter st run true = (st, 0, none))
    ∧ (∀ run, lineAfter .tracking run false = (.tracking, 0, none))
    ∧ ∀ run, lineAfter .tracking run true = (.lost, 0, some .lost)

/-- R45, R51, R52: an RMS is a nearest integer to the root of the mean of the squares (which of two at an exact half is free, log 12), and
a rounded quotient is the nearest integer with halves away from zero. -/
def Obligations.RoundingIsNearest : Prop :=
  (∀ sum frames : Nat, 0 < frames → sum ≤ 65535 * 65535 * frames →
      let r := rootMeanSquare sum frames
      4 * sum ≤ (2 * r + 1) * (2 * r + 1) * frames ∧ (r = 0 ∨ (2 * r - 1) * (2 * r - 1) * frames ≤ 4 * sum))
    ∧ ∀ (x : Int) (d : Nat), 0 < d →
      2 * (x - d * roundDiv x d).natAbs ≤ d
        ∧ (2 * (x - d * roundDiv x d).natAbs = d → x.natAbs < d * (roundDiv x d).natAbs)

/-! ### The Event Journal (chapter 1) -/

/-- R15: with fewer than 384 entries, a store attempt places the entry at the newest end with `next_seq`, which advances; no entry is removed
and no session's state changes. So the append that a block handed first, with an empty tally, is stored by JOURNAL_APPEND. -/
def Obligations.StoreWithRoom : Prop :=
  (∀ (s : State) (tick hc : W32) (body : EntryBody), s.journal.entries.length < 384 →
    s.tryStore tick hc body =
      ({ s with journal := { s.journal with
          entries := s.journal.entries ++ ([{ seq := s.journal.nextSeq, tick := tick, hc := hc, body := body }] : List Entry)
          nextSeq := if s.journal.nextSeq = 0xFFFFFFFF then 1 else s.journal.nextSeq + 1 } }, some s.journal.nextSeq))
  ∧ ∀ (src : Source) (s : State) (a : Append) (rest : List Append), s.pins.resetLow = false →
    firstOf src s.journal.waiting = some (a, rest) → s.journal.tally.isEmpty = true → s.journal.entries.length < 384 →
    exec (.journalAppend src) s = .next
      { s with journal := { s.journal with
          entries := s.journal.entries ++ ([{ seq := s.journal.nextSeq, tick := a.tick, hc := a.hc, body := a.body }] : List Entry)
          nextSeq := seqSucc s.journal.nextSeq
          waiting := rest } }.drive

/-- R16, R18, R19: on a full journal whose oldest entry no HOLD session pins, that entry is removed, each YIELD pinner is overrun, every
cursor and ack point at or before it moves to the number after it, and then the entry is stored. -/
def Obligations.EvictionMovesReaders : Prop :=
  ∀ (src : Source) (s : State) (a : Append) (rest : List Append) (e : Entry) (es : List Entry), s.pins.resetLow = false →
    firstOf src s.journal.waiting = some (a, rest) → s.journal.tally.isEmpty = true →
    s.journal.entries = e :: es → s.journal.entries.length = 384 →
    (∀ p x, s.token = some p → s.session p = some x → x.pinsEntry s.journal.nextSeq e = false) →
    let next := s.journal.nextSeq
    ∃ t, exec (.journalAppend src) s = .next t
      ∧ t.journal = { s.journal with
          entries := es ++ ([{ seq := next, tick := a.tick, hc := a.hc, body := a.body }] : List Entry), nextSeq := seqSucc next, waiting := rest }
      ∧ (∀ p, s.session p = none → t.session p = none)
      ∧ (∀ p x, s.session p = some x → t.session p = some
          { x with
            overrunCount := if x.pinsEntry next e then min 65535 (x.overrunCount + 1) else x.overrunCount
            latches := { x.latches with overrun := x.latches.overrun || x.pinsEntry next e }
            cursor := if distance next e.seq ≤ distance next x.cursor then seqSucc e.seq else x.cursor
            ackPoint := if distance next e.seq ≤ distance next x.ackPoint then seqSucc e.seq else x.ackPoint })
      ∧ t = { s with journal := t.journal, sessions := t.sessions, attnLow := t.attnLow }

/-- R13, R14, R17: on a full journal whose oldest entry the HOLD session pins, nothing is stored, removed or moved: the entry is counted in
the loss tally under its class, and with a non-zero tally its GAP is refused first and counts nothing. -/
def Obligations.HoldBlocksTheJournal : Prop :=
  ∀ (src : Source) (s : State) (a : Append) (rest : List Append) (e : Entry) (es : List Entry) (p : Port) (x : Session),
    s.pins.resetLow = false → firstOf src s.journal.waiting = some (a, rest) →
    s.journal.entries = e :: es → s.journal.entries.length = 384 →
    s.token = some p → s.session p = some x → x.pinsEntry s.journal.nextSeq e = true →
    let tally := s.journal.tally
    exec (.journalAppend src) s = .next
      { s with journal := { s.journal with
          waiting := rest
          tally := {
            counts := tally.counts.set a.body.cls (min 65535 (tally.counts.get a.body.cls + 1))
            first := if tally.counts = PerClass.all 0 then a.tick else tally.first
            last := a.tick } } }.drive

/-- R13 to R19: with a non-zero tally and room, a GAP with the tally's contents is stored first, at the append's tick and hc, the tally is
emptied, and the entry is stored after it. The GAP and the entry are stored or refused each by its own attempt: on a full journal each removes
the oldest entry and moves the readers past it, unless the HOLD session pins it, and an entry refused after its GAP is alone in the tally. (A GAP
refused is HoldBlocksTheJournal's.) -/
def Obligations.GapBeforeTheEntry : Prop :=
  ∀ (src : Source) (s : State) (a : Append) (rest : List Append), s.pins.resetLow = false →
    firstOf src s.journal.waiting = some (a, rest) → s.journal.tally.isEmpty = false →
    let j := s.journal
    let next := j.nextSeq
    let gap : Entry := { seq := next, tick := a.tick, hc := a.hc, body := .gap j.tally.counts j.tally.first j.tally.last }
    let own : Entry := { seq := seqSucc next, tick := a.tick, hc := a.hc, body := a.body }
    let empty : LossTally := { counts := PerClass.all 0, first := 0, last := 0 }
    let onlyOwn : LossTally := { counts := (PerClass.all 0).set a.body.cls 1, first := a.tick, last := a.tick }
    let past := fun (n : W32) (e : Entry) (x : Session) =>
      { x with
        overrunCount := if x.pinsEntry n e then min 65535 (x.overrunCount + 1) else x.overrunCount
        latches := { x.latches with overrun := x.latches.overrun || x.pinsEntry n e }
        cursor := if distance n e.seq ≤ distance n x.cursor then seqSucc e.seq else x.cursor
        ackPoint := if distance n e.seq ≤ distance n x.ackPoint then seqSucc e.seq else x.ackPoint }
    let leaves := fun (entries : List Entry) (nextSeq : W32) (tally : LossTally) (move : Session → Session) =>
      exec (.journalAppend src) s = .next
        { s with
          sessions := s.sessions.mapWith fun _ (x : Option Session) => x.map move
          journal := { j with entries := entries, nextSeq := nextSeq, tally := tally, waiting := rest } }.drive
    let heldBack := fun (move : Session → Session) (n : W32) (e : Entry) =>
      ∃ (p : Port) (x : Session), s.token = some p ∧ s.session p = some x ∧ (move x).pinsEntry n e = true
    (j.entries.length < 383 →
      exec (.journalAppend src) s = .next
        { s with journal := { j with
            entries := j.entries ++ ([gap, own] : List Entry), nextSeq := seqSucc (seqSucc next), tally := empty, waiting := rest } }.drive)
    ∧ (∀ (e : Entry) (es : List Entry), j.entries = e :: es → j.entries.length = 383 →
      (¬ heldBack id (seqSucc next) e →
        leaves (es ++ ([gap, own] : List Entry)) (seqSucc (seqSucc next)) empty (past (seqSucc next) e))
      ∧ (heldBack id (seqSucc next) e → leaves (e :: es ++ ([gap] : List Entry)) (seqSucc next) onlyOwn id))
    ∧ ∀ (e f : Entry) (es : List Entry), j.entries = e :: f :: es → j.entries.length = 384 → ¬ heldBack id next e →
      (¬ heldBack (past next e) (seqSucc next) f →
        leaves (es ++ ([gap, own] : List Entry)) (seqSucc (seqSucc next)) empty fun x => past (seqSucc next) f (past next e x))
      ∧ (heldBack (past next e) (seqSucc next) f →
        leaves (f :: es ++ ([gap] : List Entry)) (seqSucc next) onlyOwn (past next e))

/-- R1: every step keeps between 1 and 384 entries, with consecutive sequence numbers ending at `next_seq` minus one, zero skipped. -/
def Obligations.JournalLawKept : Prop :=
  ∀ s t : State, s.journal.Law → step s = .next t → t.journal.Law

/-- R3, R24: every step keeps each open session's ack point at or after the oldest entry, its cursor between the ack point and `next_seq`,
and SYSTEM in its mask. -/
def Obligations.ReadersLawKept : Prop :=
  ∀ s t : State, s.journal.Law → s.ReadersLaw → step s = .next t → t.ReadersLaw

/-- R17: as long as a session stays in HOLD, no command removes a stored entry that it pins, and none overruns it. -/
def Obligations.HoldProtects : Prop :=
  ∀ (c : Instr) (s t : State) (p : Port) (x : Session), s.journal.Law → s.ReadersLaw →
    exec c s = .next t → s.token = some p → t.token = some p → s.session p = some x →
    (∀ e ∈ s.journal.entries, x.pinsEntry s.journal.nextSeq e = true → e ∈ t.journal.entries)
    ∧ ∀ y, t.session p = some y → y.overrunCount = x.overrunCount

/-! ### Laws that every step keeps -/

/-- R26, R132: every step keeps the HOLD token with an open session, and the lease with an open session and at most two distinct other open
sessions waiting, none while it is FREE. -/
def Obligations.SharedHoldersKept : Prop :=
  ∀ s t : State, s.TokenLaw → s.LeaseLaw → step s = .next t → t.TokenLaw ∧ t.LeaseLaw

/-- R83, R84, R97: every step keeps each slot FREE, LIVE, or in the slot list of exactly one capture, and in STARVED each slot SEALED. -/
def Obligations.SlotLawKept : Prop :=
  ∀ s t : State, s.store.SlotLaw → step s = .next t → t.store.SlotLaw

/-- Conventions, R13, R18, R67, R74, R89, R120, R171: every step keeps every saturating counter within its range, the extra trigger counts of
the captures among them. -/
def Obligations.CountersBounded : Prop :=
  ∀ s t : State, s.Bounded → step s = .next t → t.Bounded

/-- The laws hold right after a power-on reset. -/
def Obligations.LawsAtReset : Prop :=
  State.reset.journal.Law ∧ State.reset.ReadersLaw ∧ State.reset.TokenLaw ∧ State.reset.LeaseLaw ∧ State.reset.store.SlotLaw
    ∧ State.reset.Bounded

/-! ### The Detector Bank (chapter 4) -/

/-- R63, R65 to R68, R70: what judging one half-cycle makes of a detector, by its state and the two tests. -/
def Obligations.DetectorTable : Prop :=
  ∀ (d : DetId) (input : Nat) (hc : W32) (x : Detector),
    let below := d = .uDip ∨ d = .uIntr
    let extreme := if below then min x.extreme input else max x.extreme input
    let age := min 0xFFFFFF (x.age + 1)
    (beyond d x.cfg input = true ↔ if below then input < x.cfg.onset.toNat else x.cfg.onset.toNat < input)
    ∧ (released d x.cfg input = true ↔ if below then x.cfg.release.toNat ≤ input else input ≤ x.cfg.release.toNat)
    ∧ (x.state = .idle → judge d input hc x = (x, .nothing))
    ∧ (x.state = .quiet → beyond d x.cfg input = false → judge d input hc x = (x, .nothing))
    ∧ (x.state = .quiet → beyond d x.cfg input = true → judge d input hc x =
        ({ x with state := .onset, run := 1, startHc := hc, extreme := input, age := 1, span := 1 },
          if x.cfg.onsetCount.toNat ≤ 1 then .opens else .nothing))
    ∧ (x.state = .onset → beyond d x.cfg input = false → judge d input hc x =
        ({ x with state := .quiet, run := 0, episode := 0, startHc := 0, extreme := 0, age := 0, span := 0 }, .nothing))
    ∧ (x.state = .onset → beyond d x.cfg input = true → judge d input hc x =
        ({ x with run := x.run + 1, age := age, span := min 0xFFFFFF (x.span + 1), extreme := extreme },
          if x.cfg.onsetCount.toNat ≤ x.run + 1 then .opens else .nothing))
    ∧ (x.state = .active → released d x.cfg input = false → judge d input hc x =
        ({ x with age := age, span := age, extreme := extreme }, .nothing))
    ∧ (x.state = .active → released d x.cfg input = true → judge d input hc x =
        ({ x with state := .release, run := 1, age := age, extreme := extreme },
          if x.cfg.releaseCount.toNat ≤ 1 then .closes else .nothing))
    ∧ (x.state = .release → released d x.cfg input = false → judge d input hc x =
        ({ x with state := .active, run := 0, age := age, span := age, extreme := extreme }, .nothing))
    ∧ (x.state = .release → released d x.cfg input = true → judge d input hc x =
        ({ x with run := x.run + 1, age := age, extreme := extreme },
          if x.cfg.releaseCount.toNat ≤ x.run + 1 then .closes else .nothing))

/-- R64: a close at which no S1 record has changed and no episode opens or closes moves each detector by its own judging, and hands nothing
out. -/
def Obligations.DetectorClose : Prop :=
  ∀ (s : State) (close : HandedClose) (rest : List HandedClose), s.pins.resetLow = false → s.det.inbox = close :: rest →
    let judged := fun (d : DetId) (x : Detector) => judge d (d.input close.summary) close.summary.hc x
    (∀ d, (s.det.dets.get d).cfg = s.config.committed.det.get d ∧ (judged d (s.det.dets.get d)).2 = .nothing) →
    exec .detectorClose s = .next
      { s with det := { s.det with inbox := rest, dets := s.det.dets.mapWith fun d x => (judged d x).1 } }.drive

/-- R69, R71, R74: at a close at which one detector's run is complete, it opens or closes its episode: the entry is handed to the journal at
the close's tick and hc, and a trigger to the Capture Store where the S1 in force asks for one; the other detectors move by their own judging. -/
def Obligations.EpisodesOpenAndClose : Prop :=
  ∀ (s : State) (close : HandedClose) (rest : List HandedClose) (d : DetId), s.pins.resetLow = false →
    s.det.inbox = close :: rest →
    let hc := close.summary.hc
    let judged := fun (i : DetId) => judge i (i.input close.summary) hc (s.det.dets.get i)
    let x := (judged d).1
    (∀ i, (s.det.dets.get i).cfg = s.config.committed.det.get i) → (∀ i, i ≠ d → (judged i).2 = .nothing) →
    ((judged d).2 = .opens → ∃ t, exec .detectorClose s = .next t
      ∧ t.det.dets.get d = { x with state := .active, run := 0, episode := s.det.nextEpisode }
      ∧ (∀ i, i ≠ d → t.det.dets.get i = (judged i).1)
      ∧ t.det.nextEpisode = idSucc s.det.nextEpisode ∧ t.det.inbox = rest
      ∧ t.journal = { s.journal with waiting := s.journal.waiting ++
          ([⟨.detectorBank, close.tick, hc, .episodeOpen d s.det.nextEpisode x.startHc x.extreme⟩] : List Append) }
      ∧ t.store = { s.store with inbox := s.store.inbox ++
          if x.cfg.trigOnset = 1 then [CapEvent.trigger (.onset d) close.tick hc] else [] }
      ∧ t = { s with det := t.det, journal := t.journal, store := t.store, attnLow := t.attnLow })
    ∧ ((judged d).2 = .closes → ∃ t, exec .detectorClose s = .next t
      ∧ t.det.dets.get d = { x with
          state := .quiet, run := 0, episode := 0, startHc := 0, extreme := 0, age := 0, span := 0
          tallyCount := min 65535 (x.tallyCount + 1), tallySum := min 0xFFFFFF (x.tallySum + x.span) }
      ∧ (∀ i, i ≠ d → t.det.dets.get i = (judged i).1)
      ∧ t.det.nextEpisode = s.det.nextEpisode ∧ t.det.inbox = rest
      ∧ t.journal = { s.journal with waiting := s.journal.waiting ++
          ([⟨.detectorBank, close.tick, hc, .episodeClose d x.episode x.startHc x.span x.extreme .normal⟩] : List Append) }
      ∧ t.store = { s.store with inbox := s.store.inbox ++
          if x.cfg.trigRelease = 1 then [CapEvent.trigger (.release d) close.tick hc] else [] }
      ∧ t = { s with det := t.det, journal := t.journal, store := t.store, attnLow := t.attnLow })

/-- R78, R79: at step 1 of a close a changed record becomes the S1 in force; a detector disabled with an open episode has it cut, with the
duration from its start hc, counted in the tally, and is IDLE; else it is moved by the table of R78. The other detectors are as they were.
DETECTOR_CLOSE does this for all six and then acts on detectors whose records have not changed. That the duration is the difference of hc also
where that is no longer the age is the model's choice (log 33). -/
def Obligations.ChangedDetector : Prop :=
  (∀ (s : State) (close : HandedClose) (d : DetId),
    let x := s.det.dets.get d
    let new := s.config.committed.det.get d
    let t := State.updateDetector close s d
    x.cfg ≠ new →
    (∀ i, i ≠ d → t.det.dets.get i = s.det.dets.get i)
    ∧ (x.cfg.enable = 1 → new.enable = 0 → (x.state = .active ∨ x.state = .release) →
        let duration := min 0xFFFFFF (close.summary.hc - x.startHc).toNat
        t.det.dets.get d = { x with
            cfg := new, state := .idle, run := 0, episode := 0, startHc := 0, extreme := 0, age := 0, span := 0
            tallyCount := min 65535 (x.tallyCount + 1), tallySum := min 0xFFFFFF (x.tallySum + duration) }
        ∧ t.journal.waiting = s.journal.waiting ++
            ([⟨.detectorBank, close.tick, close.summary.hc,
              .episodeClose d x.episode x.startHc duration x.extreme .cutByConfig⟩] : List Append)
        ∧ t.store = s.store)
    ∧ (x.cfg.enable = 1 → new.enable = 0 → (x.state = .quiet ∨ x.state = .onset) →
        t.det.dets.get d = { x with
          cfg := new, state := .idle, run := 0, episode := 0, startHc := 0, extreme := 0, age := 0, span := 0 } ∧ t.journal = s.journal)
    ∧ (x.cfg.enable = 0 → new.enable = 1 → (t.det.dets.get d).state = .quiet ∧ (t.det.dets.get d).cfg = new ∧ t.journal = s.journal)
    ∧ (x.cfg.enable = 0 → new.enable = 0 → t.det.dets.get d = { x with cfg := new } ∧ t.journal = s.journal)
    ∧ (x.cfg.enable = 1 → new.enable = 1 → levelsOrCountsDiffer x.cfg new = true → x.state = .onset →
        t.det.dets.get d = { x with
          cfg := new, state := .quiet, run := 0, episode := 0, startHc := 0, extreme := 0, age := 0, span := 0 } ∧ t.journal = s.journal)
    ∧ (x.cfg.enable = 1 → new.enable = 1 → levelsOrCountsDiffer x.cfg new = true → x.state = .release →
        t.det.dets.get d = { x with cfg := new, state := .active, run := 0, span := x.age } ∧ t.journal = s.journal)
    ∧ (x.cfg.enable = 1 → new.enable = 1 → (levelsOrCountsDiffer x.cfg new = false ∨ x.state = .quiet ∨ x.state = .active) →
        t.det.dets.get d = { x with cfg := new } ∧ t.journal = s.journal))
  ∧ ∀ (s : State) (close : HandedClose) (rest : List HandedClose), s.pins.resetLow = false → s.det.inbox = close :: rest →
    let hc := close.summary.hc
    let new := fun (d : DetId) => s.config.committed.det.get d
    let disabled := fun (d : DetId) (x : Detector) => decide (x.cfg.enable = 1 ∧ (new d).enable ≠ 1)
    let isCut := fun (d : DetId) => let x := s.det.dets.get d
      disabled d x && decide (x.state = .active ∨ x.state = .release)
    let duration := fun (x : Detector) => min 0xFFFFFF (hc - x.startHc).toNat
    let emptied := fun (d : DetId) (x : Detector) (state : DetState) =>
      { x with cfg := new d, state := state, run := 0, episode := 0, startHc := 0, extreme := 0, age := 0, span := 0 }
    let updated := fun (d : DetId) (x : Detector) =>
      let differ := levelsOrCountsDiffer x.cfg (new d)
      if x.cfg = new d then x
      else if isCut d then
        { emptied d x .idle with
          tallyCount := min 65535 (x.tallyCount + 1), tallySum := min 0xFFFFFF (x.tallySum + duration x) }
      else if disabled d x then emptied d x .idle
      else if (new d).enable = 1 ∧ (x.cfg.enable ≠ 1 ∨ (differ = true ∧ x.state = .onset)) then emptied d x .quiet
      else if (new d).enable = 1 ∧ differ = true ∧ x.state = .release then
        { x with cfg := new d, state := .active, run := 0, span := x.age }
      else { x with cfg := new d }
    let cuts := (allDetectors.filter isCut).map fun d => let x := s.det.dets.get d
      ({ source := .detectorBank, tick := close.tick, hc := hc
         body := .episodeClose d x.episode x.startHc (duration x) x.extreme .cutByConfig } : Append)
    let after := { s with
      det := { s.det with dets := s.det.dets.mapWith updated }
      journal := { s.journal with waiting := s.journal.waiting ++ cuts } }
    let judged := fun (d : DetId) => judge d (d.input close.summary) hc (after.det.dets.get d)
    exec .detectorClose s = exec .detectorClose after
    ∧ ((∀ d, (judged d).2 = .nothing) → exec .detectorClose s = .next
        { after with det := { after.det with inbox := rest, dets := s.det.dets.mapWith fun d _ => (judged d).1 } }.drive)

/-! ### The Capture Store (chapter 5) -/

/-- R86: a frame is written into the live ring, whose oldest frame leaves when 1024 are there, or after the frames of the recording capture
while its part is not full, or is dropped. -/
def Obligations.StoreTakesFrame : Prop :=
  ∀ (s : State) (f : StampedFrame) (rest : List CapEvent), s.pins.resetLow = false → firstFrame s.store.inbox = some (f, rest) →
    (∀ slot ring, s.store.mode = .live slot ring → ring.length ≤ 1024 → exec .captureFrame s = .next
        { s with store := { s.store with
            inbox := rest
            mode := .live slot ((if ring.length < 1024 then ring else ring.drop 1) ++ [f.frame]) } }.drive)
    ∧ (∀ c, s.store.mode = .post c → c.frames.length + 1 < c.slots.length * 1024 → exec .captureFrame s = .next
        { s with store := { s.store with inbox := rest, mode := .post { c with frames := c.frames ++ [f.frame] } } }.drive)
    ∧ (s.store.mode = .disarmed ∨ s.store.mode = .starved → exec .captureFrame s = .next
        { s with store := { s.store with inbox := rest } }.drive)

/-- R94, R95, R96: the frame that fills the part completes the capture, or, with the continue flag set, armed 1 and a FREE slot, chains it
into the lowest-numbered FREE slot. A completed capture is sealed last in the seal order with the sessions that subscribe to CAPTURE as its
holders, CAPTURE_SEALED is handed to the journal at the frame's tick and hc, and with a FREE slot the store is LIVE in it. With no FREE slot the
slot is the lowest of a reclaimed capture's, which may be the one just sealed; a chain for which nothing can be reclaimed is cut with
CHAIN_CUT, and a live ring for which nothing can be reclaimed leaves the store STARVED. -/
def Obligations.PartFull : Prop :=
  ∀ (s : State) (f : StampedFrame) (rest : List CapEvent) (c : Capture), s.pins.resetLow = false →
    firstFrame s.store.inbox = some (f, rest) → s.store.mode = .post c → c.frames.length + 1 = c.slots.length * 1024 →
    let used := s.store.sealedCaptures.flatMap Capture.slots ++ c.slots
    let frames := c.frames ++ [f.frame]
    let full := ∀ k : SlotId, k ∈ used
    let whole : Capture := { c with
      frames := frames, continueFlag := false, holders := s.captureHolders
      flags := if c.continueFlag then { c.flags with chainCut := true } else c.flags }
    let order := s.store.sealedCaptures ++ [whole]
    let completed : State := { s with
      store := { s.store with inbox := rest, sealedCaptures := order }
      journal := { s.journal with waiting := s.journal.waiting ++ ([⟨.captureStore, f.tick, f.hc,
        .captureSealed c.id c.slots (c.moreTriggers.length + 1) c.firstTrigger.source c.pre whole.flags c.extra⟩] : List Append) } }
    (∀ i : SlotId, c.continueFlag = true → s.store.s2.armed = 1 → i ∉ used → (∀ k < i, k ∈ used) →
      exec .captureFrame s = .next { s with store := { s.store with
        inbox := rest
        mode := .post { c with
          frames := frames, slots := c.slots ++ [i], continueFlag := false, flags := { c.flags with chained := true } } } }.drive)
    ∧ (∀ i : SlotId, c.continueFlag = false → s.store.s2.armed = 1 → i ∉ used → (∀ k < i, k ∈ used) →
      let c' : Capture := { c with frames := frames, continueFlag := false, holders := s.captureHolders }
      exec .captureFrame s = .next { s with
        store := { s.store with inbox := rest, sealedCaptures := s.store.sealedCaptures ++ [c'], mode := .live i [] }
        journal := { s.journal with waiting := s.journal.waiting ++ ([⟨.captureStore, f.tick, f.hc,
          .captureSealed c.id c.slots (c.moreTriggers.length + 1) c.firstTrigger.source c.pre c.flags c.extra⟩] : List Append) } }.drive)
    ∧ (s.store.s2.armed = 0 →
      let c' : Capture := { c with frames := frames, continueFlag := false, holders := s.captureHolders }
      exec .captureFrame s = .next { s with
        store := { s.store with inbox := rest, sealedCaptures := s.store.sealedCaptures ++ [c'], mode := .disarmed }
        journal := { s.journal with waiting := s.journal.waiting ++ ([⟨.captureStore, f.tick, f.hc,
          .captureSealed c.id c.slots (c.moreTriggers.length + 1) c.firstTrigger.source c.pre c.flags c.extra⟩] : List Append) } }.drive)
    ∧ (∀ (v : Capture) (i : SlotId), c.continueFlag = true → s.store.s2.armed = 1 → full →
      v.Reclaimed s.token s.store.sealedCaptures → IsLowest v.slots i →
      let after := State.withReclaimed { s with store := { s.store with inbox := rest } } v f.tick f.hc
      exec .captureFrame s = .next { after with store := { after.store with mode := .post { c with
        frames := frames, slots := c.slots ++ [i], continueFlag := false, flags := { c.flags with chained := true } } } }.drive)
    ∧ (∀ (v : Capture) (i : SlotId), s.store.s2.armed = 1 → full →
      (c.continueFlag = false ∨ ∀ b ∈ s.store.sealedCaptures, b.HeldByHold s.token) →
      v.Reclaimed s.token order → IsLowest v.slots i →
      let after := completed.withReclaimed v f.tick f.hc
      exec .captureFrame s = .next { after with store := { after.store with mode := .live i [] } }.drive)
    ∧ (s.store.s2.armed = 1 → full → (∀ b ∈ order, b.HeldByHold s.token) →
      exec .captureFrame s = .next { completed with store := { completed.store with mode := .starved } }.drive)

/-- R88, R89, R90, R92: a trigger starts a capture from the ring in LIVE, with XTRIG_OUT high where it is enabled, joins the recording capture
in POST, and is missed in DISARMED and STARVED. It is one of the triggers that may be taken next: the oldest of its origin (R73), whatever
frames and triggers of other origins were handed before it (R91), but not one of the Detector Bank while the frame that made its close waits
(R44). Which of several is a free value, drawn and counted; that, the way to tell the frame of a close by its hc, that with nothing to take
the command takes nothing, and that the millisecond of XTRIG_OUT ends at the next tick are the model's choice (log 35, 27, 3, 7). -/
def Obligations.TriggerByStoreState : Prop :=
  (∀ s : State, s.pins.resetLow = false → (∀ g rest, ¬ MayTake s.store.inbox g rest) → exec .captureTrigger s = .next s.drive)
  ∧ ∀ s : State, s.pins.resetLow = false → (∃ g rest, MayTake s.store.inbox g rest) →
    ∃ (g : WaitingTrigger) (rest : List CapEvent) (drawn : State), MayTake s.store.inbox g rest
      ∧ ((drawn = s ∧ ∀ g' rest', MayTake s.store.inbox g' rest' → g' = g ∧ rest' = rest)
        ∨ (drawn = { s with draws := s.draws + 1 }
          ∧ ∃ g' rest', MayTake s.store.inbox g' rest' ∧ g'.source.origin ≠ g.source.origin))
      ∧ (∀ slot ring, s.store.mode = .live slot ring →
        let pre := min s.store.s2.pre.toNat ring.length
        ∃ t c, exec .captureTrigger s = .next t ∧ t.store.mode = .post c ∧ t.store.inbox = rest
          ∧ c = { id := s.store.nextId, slots := [slot], chainLimit := s.store.s2.chainLimit.toNat, pre := pre, firstTick := g.tick
                  firstHc := g.hc, firstTrigger := { source := g.source, offset := pre, hc := g.hc }, moreTriggers := [], extra := 0
                  continueFlag := false
                  flags := { shortPre := decide (pre < s.store.s2.pre.toNat), chained := false, chainCut := false }
                  holders := PerPort.all false, frames := ring.drop (ring.length - pre) }
          ∧ t.store.xtrigOut = (if s.store.s2.xtrigOut = 1 then some (s.front.tick + 1) else s.store.xtrigOut)
          ∧ t.store.nextId ≠ 0 ∧ (s.store.sealedCaptures.length ≤ 8 →
              t.store.nextId ∉ c.id :: s.store.sealedCaptures.map Capture.id)
          ∧ t = { drawn with
              store := { s.store with mode := t.store.mode, inbox := rest, nextId := t.store.nextId, xtrigOut := t.store.xtrigOut }
              attnLow := t.attnLow })
      ∧ (∀ c, s.store.mode = .post c →
        let c' : Capture :=
          if c.moreTriggers.length + 1 < 8 then
            { c with moreTriggers := c.moreTriggers ++ [{ source := g.source, offset := c.frames.length, hc := g.hc }] }
          else { c with extra := min 255 (c.extra + 1) }
        exec .captureTrigger s = .next { drawn with store := { s.store with
          inbox := rest
          mode := .post (if c.slots.length < c.chainLimit then { c' with continueFlag := true } else c') } }.drive)
      ∧ (s.store.mode = .disarmed → exec .captureTrigger s = .next { drawn with
          store := { s.store with inbox := rest }
          journal := { s.journal with waiting := s.journal.waiting ++
            ([⟨.captureStore, g.tick, g.hc, .captureMissed g.source .disarmed⟩] : List Append) } }.drive)
      ∧ (s.store.mode = .starved → exec .captureTrigger s = .next { drawn with
          store := { s.store with inbox := rest }
          journal := { s.journal with waiting := s.journal.waiting ++
            ([⟨.captureStore, g.tick, g.hc, .captureMissed g.source .noSlot⟩] : List Append) } }.drive)

/-- R96, R97, R104, R105: a committed S2 comes into force as the store takes it; disarming frees the LIVE slot or ends STARVED, arming a
DISARMED store takes the lowest FREE slot. With no FREE slot, arming, another change of S2 in STARVED, and the report that the HOLD token is
free in STARVED reclaim by R96, with CAPTURE_RECLAIMED and its latches, and where nothing can be reclaimed the store is STARVED; the report
changes no other store. That the entry has the counters as they stand when the store takes the event is the model's choice (log 32). -/
def Obligations.StoreReconfigured : Prop :=
  (∀ (s : State) (new : CapCfg) (rest : List CapEvent), s.pins.resetLow = false → firstConfig s.store.inbox = some (new, rest) →
    let taken : State := { s with store := { s.store with inbox := rest, s2 := new } }
    let full := ∀ k : SlotId, k ∈ s.store.sealedCaptures.flatMap Capture.slots
    let wants := (s.store.mode = .disarmed ∧ s.store.s2.armed = 0 ∧ new.armed = 1)
      ∨ (s.store.mode = .starved ∧ s.store.s2.armed = 1 ∧ new.armed = 1 ∧ new ≠ s.store.s2)
    (∀ slot ring, s.store.mode = .live slot ring → s.store.s2.armed = 1 → new.armed = 0 → exec .captureConfig s = .next
      { s with store := { s.store with inbox := rest, s2 := new, mode := .disarmed } }.drive)
    ∧ (∀ i : SlotId, s.store.mode = .disarmed → s.store.s2.armed = 0 → new.armed = 1 →
        i ∉ s.store.sealedCaptures.flatMap Capture.slots → (∀ k < i, k ∈ s.store.sealedCaptures.flatMap Capture.slots) →
        exec .captureConfig s = .next { s with store := { s.store with inbox := rest, s2 := new, mode := .live i [] } }.drive)
    ∧ (s.store.mode ≠ .starved → new.armed = s.store.s2.armed → exec .captureConfig s = .next
        { s with store := { s.store with inbox := rest, s2 := new } }.drive)
    ∧ (∀ c, s.store.mode = .post c → exec .captureConfig s = .next taken.drive)
    ∧ (s.store.mode = .starved → s.store.s2.armed = 1 → new.armed = 0 →
        exec .captureConfig s = .next { taken with store := { taken.store with mode := .disarmed } }.drive)
    ∧ (s.store.mode = .starved → new = s.store.s2 → exec .captureConfig s = .next taken.drive)
    ∧ (∀ (v : Capture) (i : SlotId), wants → full → v.Reclaimed s.token s.store.sealedCaptures → IsLowest v.slots i →
        let after := taken.withReclaimed v s.front.tick s.front.hc
        exec .captureConfig s = .next { after with store := { after.store with mode := .live i [] } }.drive)
    ∧ (wants → full → (∀ b ∈ s.store.sealedCaptures, b.HeldByHold s.token) →
        exec .captureConfig s = .next { taken with store := { taken.store with mode := .starved } }.drive))
  ∧ ∀ (s : State) (rest : List CapEvent), s.pins.resetLow = false → firstTokenFree s.store.inbox = some rest →
    (s.store.mode ≠ .starved → exec .captureTokenFree s = .next { s with store := { s.store with inbox := rest } }.drive)
    ∧ (∀ (before after : List Capture) (c : Capture) (i : SlotId), s.store.mode = .starved →
        s.store.sealedCaptures = before ++ c :: after → (∀ k : SlotId, k ∈ s.store.sealedCaptures.flatMap Capture.slots) →
        (∀ b ∈ before, b.holders ≠ PerPort.all false) → c.holders = PerPort.all false →
        (∀ b ∈ before ++ after, b.id ≠ c.id) → i ∈ c.slots → (∀ k ∈ c.slots, i ≤ k) →
        ∃ t, exec .captureTokenFree s = .next t
          ∧ t.store = { s.store with inbox := rest, sealedCaptures := before ++ after, mode := .live i [] }
          ∧ t.journal = { s.journal with waiting := s.journal.waiting ++
              ([⟨.captureStore, s.front.tick, s.front.hc, .captureReclaimed c.id (PerPort.all false)⟩] : List Append) }
          ∧ t = { s with store := t.store, journal := t.journal, attnLow := t.attnLow })
    ∧ (s.store.mode = .starved → (∀ k : SlotId, k ∈ s.store.sealedCaptures.flatMap Capture.slots) →
        let taken : State := { s with store := { s.store with inbox := rest } }
        (∀ (v : Capture) (i : SlotId), v.Reclaimed s.token s.store.sealedCaptures → IsLowest v.slots i →
          let after := taken.withReclaimed v s.front.tick s.front.hc
          exec .captureTokenFree s = .next { after with store := { after.store with mode := .live i [] } }.drive)
        ∧ ((∀ b ∈ s.store.sealedCaptures, b.HeldByHold s.token) → exec .captureTokenFree s = .next taken.drive))

/-- R92: a change of XTRIG_IN from the kept level updates the level, and with the matching polarity hands trigger $18 to the store at the
tick and hc at which it is taken; XTRIG_OUT returns low at the tick that ends its pulse, counted in ticks (log 7), or later (log 6). -/
def Obligations.CrossTrigger : Prop :=
  (∀ (s : State) (high : Bool), s.pins.resetLow = false → s.store.xtrigLevel ≠ high →
    exec (.xtrigInEdge high) s = .next { s with
      pins := { s.pins with xtrigInHigh := high }
      store := { s.store with
        xtrigLevel := high
        inbox := s.store.inbox ++
          if s.store.s2.xtrigIn = (if high then 1 else 2) then [CapEvent.trigger .xtrigIn s.front.tick s.front.hc] else [] } }.drive)
  ∧ (∀ s : State, s.pins.resetLow = false → exec (.xtrigInEdge s.store.xtrigLevel) s = .next
      { s with pins := { s.pins with xtrigInHigh := s.store.xtrigLevel } }.drive)
  ∧ ∀ (s : State) (due : W32), s.pins.resetLow = false → s.store.xtrigOut = some due → reached s.front.tick due = true →
      exec .xtrigOutPulseEnd s = .next { s with store := { s.store with xtrigOut := none } }.drive

/-! ### The Energy Block (chapter 6) -/

/-- R109 to R111, R114, R118: a close taken with every accumulator counting and no engine bound counts its contribution for each: by the
source's average, the sample count and the direction into the residue, whole quanta into the value. With every gate in FAULT it counts
nothing. A pending snapshot completes at any close, whatever the gates: its record and its entry hold the values after this close's work, and
the sessions of its mask are latched. -/
def Obligations.EnergyCloseCounts : Prop :=
  (∀ (x : Summary) (code : W16), code.toNat ≤ 7 →
    ((EnergySource.ofCode code).average x, (EnergySource.ofCode code).divider) =
      [(x.pA, 230400), (x.pB, 230400), (x.qA, 230400), (x.qB, 230400), (x.sA, 230400), (x.sB, 230400), ((x.iaRms : Int), 2304000),
        ((1 : Int), 6400)].getD code.toNat (0, 0))
  ∧ (∀ (c : Int) (code : W16), code.toNat ≤ 3 →
      (EnergyDirection.ofCode code).counted c = [max c 0, max (-c) 0, c, max c (-c)].getD code.toNat 0)
  ∧ ∀ (s : State) (close : HandedClose) (rest : List HandedClose), s.pins.resetLow = false → s.energy.closes = close :: rest →
    let x := close.summary
    let en := s.energy
    let src := fun (a : AccId) => EnergySource.ofCode (en.s3.acc.get a).source
    ((∀ a, (en.acc.get a).gate = .running ∧
        ((src a) = .time ∨ (en.s3.acc.get a).creepLevel.toNat ≤ ((src a).average x).natAbs)) →
      (∀ e, boundAcc (en.s3.pulse.get e).binding = none) → en.pendingSnapshot = none →
      exec .energyClose s = .next { s with energy := { en with
        closes := rest
        lastCloseHc := x.hc
        acc := en.acc.mapWith fun a (r : Accumulator) =>
          let counted := (EnergyDirection.ofCode (en.s3.acc.get a).direction).counted ((src a).average x * x.n)
          let quanta := (r.residue + counted).tdiv (src a).divider
          { r with
            creepRun := 0
            residue := (r.residue + counted).tmod (src a).divider
            value := r.value + BitVec.ofInt 48 quanta
            lastHc := if quanta = 0 then r.lastHc else x.hc } } }.drive)
    ∧ ((∀ a, (en.acc.get a).gate = .fault) → en.pendingSnapshot = none →
      exec .energyClose s = .next { s with energy := { en with closes := rest, lastCloseHc := x.hc } }.drive)
    ∧ (∀ snap : PendingSnapshot,
      (∀ a, (en.acc.get a).gate = .running ∧
        ((src a) = .time ∨ (en.s3.acc.get a).creepLevel.toNat ≤ ((src a).average x).natAbs)) →
      (∀ e, boundAcc (en.s3.pulse.get e).binding = none) → en.pendingSnapshot = some snap →
      let acc := en.acc.mapWith fun a (r : Accumulator) =>
        let counted := (EnergyDirection.ofCode (en.s3.acc.get a).direction).counted ((src a).average x * x.n)
        let quanta := (r.residue + counted).tdiv (src a).divider
        { r with
          creepRun := 0
          residue := (r.residue + counted).tmod (src a).divider
          value := r.value + BitVec.ofInt 48 quanta
          lastHc := if quanta = 0 then r.lastHc else x.hc }
      let values := acc.mapWith fun _ (r : Accumulator) => r.value
      exec .energyClose s = .next { s with
        energy := { en with
          closes := rest
          lastCloseHc := x.hc
          acc := acc
          pendingSnapshot := none
          lastSnapshot := { id := snap.id, tick := close.tick, hc := x.hc, requesters := snap.requesters, values := values } }
        journal := { s.journal with waiting := s.journal.waiting ++
          ([⟨.energyBlock, close.tick, x.hc, .snapshot snap.id snap.requesters values⟩] : List Append) }
        sessions := s.sessions.mapWith fun p (z : Option Session) => z.map fun (y : Session) =>
          if snap.requesters.get p then { y with latches := { y.latches with snapshotDone := true } } else y }.drive)
    ∧ (∀ snap : PendingSnapshot, (∀ a, (en.acc.get a).gate = .fault) → en.pendingSnapshot = some snap →
      let values := en.acc.mapWith fun _ r => r.value
      exec .energyClose s = .next { s with
        energy := { en with
          closes := rest
          lastCloseHc := x.hc
          pendingSnapshot := none
          lastSnapshot := { id := snap.id, tick := close.tick, hc := x.hc, requesters := snap.requesters, values := values } }
        journal := { s.journal with waiting := s.journal.waiting ++
          ([⟨.energyBlock, close.tick, x.hc, .snapshot snap.id snap.requesters values⟩] : List Append) }
        sessions := s.sessions.mapWith fun p (z : Option Session) => z.map fun (y : Session) =>
          if snap.requesters.get p then { y with latches := { y.latches with snapshotDone := true } } else y }.drive)
    ∧ ∀ snap : PendingSnapshot, en.pendingSnapshot = some snap →
      ∃ t, exec .energyClose s = .next t ∧ t.energy.pendingSnapshot = none
        ∧ t.energy.lastSnapshot = { id := snap.id, tick := close.tick, hc := x.hc, requesters := snap.requesters
                                    values := t.energy.acc.mapWith fun _ r => r.value }
        ∧ (∃ before, t.journal.waiting = s.journal.waiting ++ before ++
            ([⟨.energyBlock, close.tick, x.hc, .snapshot snap.id snap.requesters t.energy.lastSnapshot.values⟩] : List Append))
        ∧ ∀ p z, s.session p = some z → ∃ y, t.session p = some y
          ∧ y.latches.snapshotDone = (z.latches.snapshotDone || snap.requesters.get p)

/-- R111 to R114: what a close makes of each accumulator by its own gate, whatever the other gates are and whether engines are bound or a
snapshot is pending: its record, and the CREEP_CHANGE entries, which are handed in accumulator order with the close's tick and hc, before the
entry of a snapshot. -/
def Obligations.CreepGate : Prop :=
  ∀ (s : State) (close : HandedClose) (rest : List HandedClose), s.pins.resetLow = false → s.energy.closes = close :: rest →
    let x := close.summary
    ∃ (t : State) (changes : AccId → List Gate), exec .energyClose s = .next t
      ∧ (∀ a : AccId,
        let cfg := s.energy.s3.acc.get a
        let src := EnergySource.ofCode cfg.source
        let r := s.energy.acc.get a
        let isLow := src ≠ .time ∧ (src.average x).natAbs < cfg.creepLevel.toNat
        let total := r.residue + (EnergyDirection.ofCode cfg.direction).counted (src.average x * x.n)
        let quanta := total.tdiv src.divider
        let counts := fun (r' : Accumulator) =>
          { r' with
            residue := total.tmod src.divider
            value := r.value + BitVec.ofInt 48 quanta
            lastHc := if quanta = 0 then r.lastHc else x.hc }
        let becomes := fun (r' : Accumulator) (gates : List Gate) => t.energy.acc.get a = r' ∧ changes a = gates
        (r.gate = .fault → becomes r [])
        ∧ (r.gate = .running → ¬ isLow → becomes (counts { r with creepRun := 0 }) [])
        ∧ (r.gate = .running → isLow → r.creepRun + 1 < cfg.creepCount.toNat →
            becomes (counts { r with creepRun := r.creepRun + 1 }) [])
        ∧ (r.gate = .running → isLow → cfg.creepCount.toNat ≤ r.creepRun + 1 →
            becomes { r with gate := .creep, creepRun := 0, residue := 0 } [.creep])
        ∧ (r.gate = .creep → isLow → becomes r [])
        ∧ (r.gate = .creep → ¬ isLow → becomes (counts { r with gate := .running, creepRun := 0 }) [.running]))
      ∧ t.journal = { s.journal with waiting := s.journal.waiting
          ++ (allAccumulators.flatMap fun a => (changes a).map fun g =>
              ({ source := .energyBlock, tick := close.tick, hc := x.hc, body := .creepChange a g } : Append))
          ++ s.energy.pendingSnapshot.toList.map fun n =>
              ({ source := .energyBlock, tick := close.tick, hc := x.hc
                 body := .snapshot n.id n.requesters (t.energy.acc.mapWith fun _ r => r.value) } : Append) }
      ∧ (s.energy.pendingSnapshot = none →
          t.energy.pendingSnapshot = none ∧ t.energy.lastSnapshot = s.energy.lastSnapshot)
      ∧ t = { s with
          energy := { s.energy with
            closes := rest, lastCloseHc := x.hc, acc := t.energy.acc, engines := t.energy.engines
            pendingSnapshot := t.energy.pendingSnapshot, lastSnapshot := t.energy.lastSnapshot }
          journal := t.journal, sessions := t.sessions, draws := t.draws, attnLow := t.attnLow }

/-- R110, R120, R121: at a close, whatever the gates and the bindings, the magnitude of the quanta that an accumulator moves goes into the pulse
residue of each engine bound to it, each K of it owes a pulse, at most 15 pulses are pending and the others are lost, and an idle engine starts
one at once; an engine that receives nothing is as it was. Each engine's phases end by PULSE_HIGH_END and PULSE_GAP_END, counted in ticks
(log 7), at the tick of the end or later (log 6). Which of two an idle engine owed more than 15 at once loses is free (log 11). -/
def Obligations.PulsesOwedAndPhases : Prop :=
  (∀ (s : State) (close : HandedClose) (rest : List HandedClose), s.pins.resetLow = false → s.energy.closes = close :: rest →
    (∀ e, 1 ≤ (s.energy.s3.pulse.get e).k.toNat) →
    let sum := close.summary
    let average := fun (a : AccId) => (EnergySource.ofCode (s.energy.s3.acc.get a).source).average sum
    let counted := fun (a : AccId) =>
      let cfg := s.energy.s3.acc.get a
      let r := s.energy.acc.get a
      let isLow := decide (EnergySource.ofCode cfg.source ≠ .time ∧ (average a).natAbs < cfg.creepLevel.toNat)
      decide ((r.gate = .running ∧ (isLow = false ∨ r.creepRun + 1 < cfg.creepCount.toNat)) ∨ (r.gate = .creep ∧ isLow = false))
    let moved := fun (a : AccId) =>
      let cfg := s.energy.s3.acc.get a
      let total := (s.energy.acc.get a).residue + (EnergyDirection.ofCode cfg.direction).counted (average a * sum.n)
      if counted a then (total.tdiv (EnergySource.ofCode cfg.source).divider).natAbs else 0
    let fed := fun (e : PulseId) => ((boundAcc (s.energy.s3.pulse.get e).binding).map moved).getD 0
    let wanted := fun (e : PulseId) =>
      (s.energy.engines.get e).pending + ((s.energy.engines.get e).residue + fed e) / (s.energy.s3.pulse.get e).k.toNat
    ∃ t, exec .energyClose s = .next t
      ∧ (∀ e, fed e = 0 → t.energy.engines.get e = s.energy.engines.get e)
      ∧ (∀ e, fed e ≠ 0 →
        let pulse := s.energy.s3.pulse.get e
        let x := s.energy.engines.get e
        let y := t.energy.engines.get e
        y.residue = (x.residue + fed e) % pulse.k.toNat
        ∧ (x.phase ≠ .idle →
            y.phase = x.phase ∧ y.pending = min 15 (wanted e) ∧ y.lost = min 65535 (x.lost + (wanted e - 15)))
        ∧ (x.phase = .idle → wanted e = 0 → y = { x with residue := y.residue, lost := min 65535 x.lost })
        ∧ (x.phase = .idle → 1 ≤ wanted e →
            y.phase = .high pulse.width.toNat (s.front.tick + BitVec.ofNat 32 pulse.width.toNat))
        ∧ (x.phase = .idle → 1 ≤ wanted e → wanted e ≤ 15 → y.pending = wanted e - 1 ∧ y.lost = min 65535 x.lost)
        ∧ (x.phase = .idle → 16 ≤ wanted e →
            ∃ first ≤ 1, y.pending = 14 + first ∧ y.lost = min 65535 (x.lost + (wanted e - 15 - first))))
      ∧ (∀ p, s.session p = none → t.session p = none)
      ∧ (∀ p z, s.session p = some z → ∃ y, t.session p = some y
          ∧ ((∀ e, fed e ≠ 0 → wanted e ≤ 15) → y.latches.pulseLost = z.latches.pulseLost)
          ∧ ((∃ e, fed e ≠ 0 ∧ (if (s.energy.engines.get e).phase = .idle then 17 else 16) ≤ wanted e) → y.latches.pulseLost = true)
          ∧ y = { z with latches := { z.latches with
              pulseLost := y.latches.pulseLost, snapshotDone := y.latches.snapshotDone } }))
  ∧ (∀ (s : State) (e : PulseId) (width : Nat) (due : W32), s.pins.resetLow = false →
      (s.energy.engines.get e).phase = .high width due → reached s.front.tick due = true →
      let y := { s.energy.engines.get e with phase := .gap width (s.front.tick + BitVec.ofNat 32 width) }
      exec (.pulseHighEnd e) s = .next { s with energy := { s.energy with engines := s.energy.engines.set e y } }.drive)
  ∧ ∀ (s : State) (e : PulseId) (width : Nat) (due : W32), s.pins.resetLow = false →
      (s.energy.engines.get e).phase = .gap width due → reached s.front.tick due = true →
      let x := s.energy.engines.get e
      let fresh := (s.energy.s3.pulse.get e).width.toNat
      let started := { x with pending := x.pending - 1, phase := .high fresh (s.front.tick + BitVec.ofNat 32 fresh) }
      (x.pending = 0 → exec (.pulseGapEnd e) s = .next
        { s with energy := { s.energy with engines := s.energy.engines.set e { x with phase := .idle } } }.drive)
      ∧ (1 ≤ x.pending → exec (.pulseGapEnd e) s = .next
        { s with energy := { s.energy with engines := s.energy.engines.set e started } }.drive)

/-- R108, R114, R123, R124: the integrity fault freezes every gate; a committed S3 zeroes each accumulator whose source or direction it
changes, with its baselines and the engines bound to it before or after, clears an engine whose binding or K it changes, and frees the gates
from FAULT. The pulse of a cleared engine that is on the line runs out: its high phase ends in its gap, and the gap in IDLE, at their ticks or
later (log 6). The last update hc of a zeroed accumulator is the hc counter when the Energy Block takes the commit (log 9). -/
def Obligations.EnergyConfigAndFault : Prop :=
  (∀ (s : State) (rest : List EnergyEvent), s.pins.resetLow = false → s.energy.handed = .fault :: rest →
    exec .energyFault s = .next { s with energy := { s.energy with
      handed := rest, acc := s.energy.acc.mapWith fun _ (r : Accumulator) => { r with gate := .fault, creepRun := 0 } } }.drive)
  ∧ (∀ (s : State) (e : PulseId) (width : Nat) (due : W32), s.pins.resetLow = false → reached s.front.tick due = true →
    let ends := fun (phase : PulsePhase) => { s with energy := { s.energy with
      engines := s.energy.engines.set e { s.energy.engines.get e with phase := phase } } }.drive
    ((s.energy.engines.get e).phase = .high width due →
      exec (.pulseHighEnd e) s = .next (ends (.gap width (s.front.tick + BitVec.ofNat 32 width))))
    ∧ ((s.energy.engines.get e).phase = .gap width due → (s.energy.engines.get e).pending = 0 →
      exec (.pulseGapEnd e) s = .next (ends .idle)))
  ∧ ∀ (s : State) (new : EnergyCfg) (rest : List EnergyEvent), s.pins.resetLow = false → s.energy.handed = .config new :: rest →
    let old := s.energy.s3
    let zeroed : AccId → Bool := fun a =>
      decide ((old.acc.get a).source ≠ (new.acc.get a).source ∨ (old.acc.get a).direction ≠ (new.acc.get a).direction)
    let cleared := fun (e : PulseId) => (old.pulse.get e).binding ≠ (new.pulse.get e).binding ∨ (old.pulse.get e).k ≠ (new.pulse.get e).k
      ∨ ∃ a, zeroed a = true ∧ (boundAcc (old.pulse.get e).binding = some a ∨ boundAcc (new.pulse.get e).binding = some a)
    ∃ t, exec .energyConfig s = .next t
      ∧ (∀ a, zeroed a = true →
          t.energy.acc.get a = { value := 0, residue := 0, gate := .running, creepRun := 0, lastHc := s.front.hc })
      ∧ (∀ a, zeroed a = false → t.energy.acc.get a =
          if (s.energy.acc.get a).gate = .fault then { s.energy.acc.get a with gate := .running, creepRun := 0 }
          else s.energy.acc.get a)
      ∧ (∀ e, cleared e → t.energy.engines.get e = { s.energy.engines.get e with residue := 0, pending := 0 })
      ∧ (∀ e, ¬ cleared e → t.energy.engines.get e = s.energy.engines.get e)
      ∧ (∀ p, s.session p = none → t.session p = none)
      ∧ (∀ p x, s.session p = some x → t.session p = some
          { x with baselines := x.baselines.mapWith fun a (b : W48) => if zeroed a then 0 else b })
      ∧ t = { s with
          energy := { s.energy with s3 := new, handed := rest, acc := t.energy.acc, engines := t.energy.engines }
          sessions := t.sessions, attnLow := t.attnLow }

/-! ### The setup lease and the configuration (chapter 7) -/

/-- R133, R138: what LEASE_TAKE answers and does, by the lease and the queue as they stand. Whatever its outcome, it clears the requester's
LEASE_GRANTED. -/
def Obligations.LeaseTaken : Prop :=
  ∀ (s : State) (p : Port) (tag seconds wait : Byte) (x : Session), s.readyFor p → s.session p = some x →
    let base := s.setSession p (some { s.touched p x with latches := { x.latches with leaseGranted := false } })
    let expiry := s.front.tick + BitVec.ofNat 32 (1000 * seconds.toNat)
    let granted := Reply.ok ([portCode p] ++ be16n (1000 * seconds.toNat) ++ be16 s.config.generation)
    let heldBy := fun (t : Tenure) => [portCode t.holder] ++ be16n (remainingMs s.front.tick t.expiry)
    let run := exec (.leaseTake p tag seconds wait) s
    let argsOk := 1 ≤ seconds.toNat ∧ seconds.toNat ≤ 60 ∧ wait.toNat ≤ 1
    (¬ argsOk → run = .next (base.replied p tag (Reply.refuse .badValue)))
    ∧ (argsOk → s.lease = none → run = .next
        ({ base with
          lease := some { holder := p, expiry := expiry, stage := s.config.committed }
          journal := { s.journal with waiting := s.journal.waiting ++
            ([⟨.leaseArbiter, s.front.tick, s.front.hc, .leaseEvent .granted p⟩] : List Append) } }.replied p tag granted))
    ∧ (∀ t, argsOk → s.lease = some t → t.holder = p → run = .next
        ({ base with lease := some { t with expiry := expiry } }.replied p tag granted))
    ∧ (∀ t, argsOk → s.lease = some t → t.holder ≠ p → wait = 0 → run = .next
        (base.replied p tag (Reply.carry .leaseHeld (heldBy t))))
    ∧ (∀ t, argsOk → s.lease = some t → t.holder ≠ p → wait = 1 → (∀ w ∈ s.queue, w.host ≠ p) → run = .next
        ({ base with queue := s.queue ++ ([{ host := p, seconds := seconds.toNat }] : List Waiter) }.replied p tag
          (Reply.carry .queued (heldBy t ++ [byteOf (s.queue.length + 1)]))))
    ∧ ∀ t w before after, argsOk → s.lease = some t → t.holder ≠ p → wait = 1 → s.queue = before ++ w :: after → w.host = p →
        (∀ v ∈ before, v.host ≠ p) → run = .next
        (base.replied p tag (Reply.carry .queued (heldBy t ++ [byteOf (before.length + 1)])))

/-- R134, R135, R137, R138, R153: a tenure ends by its holder's release or by expiry, at its tick or later (log 6), its stage is gone, the entry of the ending is handed to
the journal, and the lease becomes FREE or passes to the first waiter with a fresh stage, an entry and a latch. A waiter's release takes it
from the queue. LEASE_WARN_START changes nothing but the lines, since LEASE_WARN is a level (log 8). -/
def Obligations.LeaseEnds : Prop :=
  let ended := fun (s : State) (event : LeaseEventKind) (holder : Port) =>
    { s with lease := none, journal := { s.journal with waiting := s.journal.waiting ++
      ([⟨.leaseArbiter, s.front.tick, s.front.hc, .leaseEvent event holder⟩] : List Append) } }
  let passed := fun (s : State) (event : LeaseEventKind) (holder : Port) (w : Waiter) (rest : List Waiter) =>
    State.latch { s with
      lease := some
        { holder := w.host, expiry := s.front.tick + BitVec.ofNat 32 (1000 * w.seconds), stage := s.config.committed }
      queue := rest
      journal := { s.journal with waiting := s.journal.waiting ++
        ([⟨.leaseArbiter, s.front.tick, s.front.hc, .leaseEvent event holder⟩,
          ⟨.leaseArbiter, s.front.tick, s.front.hc, .leaseEvent .granted w.host⟩] : List Append) } }
      w.host fun l => { l with leaseGranted := true }
  (∀ (s : State) (p : Port) (tag : Byte) (x : Session), s.readyFor p → s.session p = some x →
    let base := s.setSession p (some { s.touched p x with latches := { x.latches with leaseGranted := false } })
    (∀ t, s.lease = some t → t.holder = p → s.queue = [] →
      exec (.leaseRelease p tag) s = .next ((ended base .released p).replied p tag (Reply.ok [])))
    ∧ (∀ t w rest, s.lease = some t → t.holder = p → s.queue = w :: rest →
      exec (.leaseRelease p tag) s = .next ((passed base .released p w rest).replied p tag (Reply.ok [])))
    ∧ ((∀ t, s.lease = some t → t.holder ≠ p) → (∃ w ∈ s.queue, w.host = p) →
      exec (.leaseRelease p tag) s = .next
        ({ base with queue := s.queue.filter fun w => w.host != p }.replied p tag (Reply.ok [])))
    ∧ ((∀ t, s.lease = some t → t.holder ≠ p) → (∀ w ∈ s.queue, w.host ≠ p) →
      exec (.leaseRelease p tag) s = .next (base.replied p tag (Reply.refuse .notLeaseholder))))
  ∧ (∀ (s : State) (t : Tenure), s.pins.resetLow = false → s.lease = some t → reached s.front.tick t.expiry = true →
    (s.queue = [] → exec .leaseExpiry s = .next (ended s .expired t.holder).drive)
    ∧ ∀ w rest, s.queue = w :: rest → exec .leaseExpiry s = .next (passed s .expired t.holder w rest).drive)
  ∧ ∀ s : State, exec .leaseWarnStart s = .next s.drive

/-- R139, R141, R142, R143, R176: the holder writes an item of its stage, reads it, and brings it back to the committed table; any session reads
the committed table and the state of the lease. A write changes its one item, and an address with field $FF names every field of its record. With
the lease FREE or held by another, STAGE_WRITE, STAGE_READ and DISCARD are refused whatever they carry; of the holder an address that names
nothing and a value out of range are. -/
def Obligations.StageRequests : Prop :=
  (∀ (s : State) (p : Port) (tag : Byte) (x : Session), s.readyFor p → s.session p = some x →
    let base := s.setSession p (some (s.touched p x))
    (∀ (t : Tenure) (i : Item) (v : W16), s.lease = some t → t.holder = p → i.inRange v = true →
      exec (.stageWrite p tag i.sectionNumber i.record i.field v) s = .next
        ({ base with lease := some { t with stage := t.stage.set i v } }.replied p tag
          (Reply.ok ([i.sectionNumber, i.record, i.field] ++ be16 v))))
    ∧ (∀ (t : Tenure) (sec record field : Byte), s.lease = some t → t.holder = p → Item.named sec record field ≠ [] →
      exec (.stageRead p tag sec record field) s = .next (s.onlyReplied p tag x
        (Reply.ok ([sec, record, field] ++ (Item.named sec record field).flatMap fun i => be16 (t.stage.get i)))))
    ∧ (∀ (sec record field : Byte), Item.named sec record field ≠ [] →
      exec (.configRead p tag sec record field) s = .next (s.onlyReplied p tag x
        (Reply.ok (be16 s.config.generation ++ [sec, record, field]
          ++ (Item.named sec record field).flatMap fun i => be16 (s.config.committed.get i)))))
    ∧ (∀ t : Tenure, s.lease = some t → t.holder = p →
      exec (.discard p tag) s = .next
        ({ base with lease := some { t with stage := s.config.committed } }.replied p tag (Reply.ok [])))
    ∧ (let refused := fun (c : Instr) (status : Status) => exec c s = .next (s.onlyReplied p tag x (Reply.refuse status))
      ((∀ t, s.lease = some t → t.holder ≠ p) →
        (∀ sec record field value, refused (.stageWrite p tag sec record field value) .notLeaseholder)
        ∧ (∀ sec record field, refused (.stageRead p tag sec record field) .notLeaseholder)
        ∧ refused (.discard p tag) .notLeaseholder)
      ∧ (∀ t : Tenure, s.lease = some t → t.holder = p →
        (∀ sec record field value, (∀ i : Item, ¬ (i.sectionNumber = sec ∧ i.record = record ∧ i.field = field)) →
          refused (.stageWrite p tag sec record field value) .badValue)
        ∧ (∀ (i : Item) (value : W16), i.inRange value = false →
          refused (.stageWrite p tag i.sectionNumber i.record i.field value) .badValue)
        ∧ ∀ sec record field, Item.named sec record field = [] → refused (.stageRead p tag sec record field) .badValue)
      ∧ ∀ sec record field, Item.named sec record field = [] → refused (.configRead p tag sec record field) .badValue)
    ∧ exec (.leaseStatus p tag) s = .next
        ((s.setSession p (some { s.touched p x with latches := { x.latches with leaseGranted := false } })).replied p tag (Reply.ok
          ((match s.lease with
            | none => ([0, 0xFF, 0, 0] : List Byte)
            | some t => [1, portCode t.holder] ++ be16n (remainingMs s.front.tick t.expiry))
          ++ [byteOf s.queue.length] ++ waiterBytes s.queue[0]? ++ waiterBytes s.queue[1]? ++ [s.leasePlace p]
          ++ be16 s.config.generation ++ be16 s.config.code
          ++ [flagByte s.config.fault, flagByte (s.holdsLease p && s.lease.any fun t => t.stage != s.config.committed)]))))
  ∧ (∀ (t : Table) (i : Item) (v : W16), (t.set i v).get i = v ∧ ∀ j, j ≠ i → (t.set i v).get j = t.get j)
  ∧ (∀ i : Item, Item.named i.sectionNumber i.record i.field = [i])
  ∧ (∀ d : DetId, Item.named 1 d.record 0xFF = detFields.map (.det d))
  ∧ Item.named 4 2 0xFF = [.host .c .idleLimit, .host .c .holdPermit, .rateMode]
  ∧ Item.named 0 0 0xFF = [.front .gainU, .front .gainIA, .front .gainIB, .front .nominal]
  ∧ Item.named 2 0 0xFF = [.cap .armed, .cap .pre, .cap .chainLimit, .cap .xtrigIn, .cap .xtrigOut]
  ∧ (∀ a : AccId, Item.named 3 a.record 0xFF =
      [.acc a .source, .acc a .direction, .acc a .creepLevel, .acc a .creepCount, .acc a .lock])
  ∧ (∀ e : PulseId, Item.named 3 (pulseRecord e) 0xFF = [.pulse e .binding, .pulse e .k, .pulse e .width])
  ∧ (∀ p : Port, p ≠ .c → Item.named 4 (portCode p) 0xFF = [.host p .idleLimit, .host p .holdPermit])
  ∧ (∀ sec record : Byte, (∀ i : Item, ¬ (i.sectionNumber = sec ∧ i.record = record)) → Item.named sec record 0xFF = [])
  ∧ ∀ sec record field : Byte, field ≠ 0xFF → (∀ i : Item, ¬ (i.sectionNumber = sec ∧ i.record = record ∧ i.field = field)) →
      Item.named sec record field = []

/-- R145, R146, R85, R108: a stage that passes validation becomes the committed table, with the next generation, its code and the fault
clear; CONFIG_COMMIT is appended; the new S2 goes to the Capture Store if S2 changed and the new S3 to the Energy Block. A stage that fails
changes nothing and the item is named that fails first in item order, the lock rules before every other check; each check fails as the tables
of R125 and R144 and the ranges of the catalogue lay down. With the lease FREE or held by another, COMMIT is refused (R176). -/
def Obligations.CommitCarriedOut : Prop :=
  (∀ (s : State) (p : Port) (tag : Byte) (x : Session) (t : Tenure), s.readyFor p → s.session p = some x → s.lease = some t →
    t.holder = p →
    (validateStage s.token s.config.committed t.stage = none → s.journal.waiting = [] →
      s.journal.tally.isEmpty = true → s.journal.entries.length < 384 →
      let old := s.config.committed
      let new := t.stage
      let generation := s.config.generation + 1
      let sections := changedSections old new
      let accs := resetMask old.energy new.energy
      exec (.commit p tag) s = .next
        ({ s.setSession p (some (s.touched p x)) with
          config := { s.config with committed := new, generation := generation, code := new.code, fault := false }
          journal := { s.journal with
            entries := s.journal.entries ++ ([{ seq := s.journal.nextSeq, tick := s.front.tick, hc := s.front.hc
                                                body := .configCommit generation p sections accs }] : List Entry)
            nextSeq := seqSucc s.journal.nextSeq }
          store := { s.store with inbox := s.store.inbox ++ if old.cap = new.cap then [] else [CapEvent.config new.cap] }
          energy := { s.energy with handed := s.energy.handed ++ ([.config new.energy] : List EnergyEvent) } }.replied p tag
            (Reply.ok (be16 generation ++ [sections, accs] ++ be32 s.journal.nextSeq))))
    ∧ (∀ i reason, validateStage s.token s.config.committed t.stage = some (i, reason) →
      exec (.commit p tag) s = .next (s.onlyReplied p tag x
        (Reply.carry (if reason = .lock then .locked else .invalid) [i.sectionNumber, i.record, i.field, reason.code]))))
  ∧ (∀ (s : State) (p : Port) (tag : Byte) (x : Session), s.readyFor p → s.session p = some x →
    (∀ t, s.lease = some t → t.holder ≠ p) →
    exec (.commit p tag) s = .next (s.onlyReplied p tag x (Reply.refuse .notLeaseholder)))
  ∧ (∀ (token : Option Port) (committed stage : Table),
      (validateStage token committed stage = none ↔
        (∀ i, lockBroken committed stage i = false) ∧ ∀ i, itemFault token stage i = none)
      ∧ ∀ i reason, validateStage token committed stage = some (i, reason) →
        (reason = .lock ∧ lockBroken committed stage i = true)
        ∨ ((∀ j, lockBroken committed stage j = false) ∧ itemFault token stage i = some reason))
  ∧ (∀ i : Item, i ∈ Item.all)
  ∧ (Item.all.Pairwise fun i j => i.sectionNumber < j.sectionNumber ∨ (i.sectionNumber = j.sectionNumber
      ∧ (i.record < j.record ∨ (i.record = j.record ∧ i.field < j.field))))
  ∧ (∀ (token : Option Port) (committed stage : Table) (i : Item) (reason : FailReason),
      validateStage token committed stage = some (i, reason) → ∃ before after, Item.all = before ++ i :: after
        ∧ ((reason = .lock ∧ ∀ j ∈ before, lockBroken committed stage j = false)
          ∨ (reason ≠ .lock ∧ ∀ j ∈ before, itemFault token stage j = none)))
  ∧ (∀ (committed stage : Table) (i : Item), lockBroken committed stage i = true ↔
      ∃ a : AccId, (committed.energy.acc.get a).lock = 1
        ∧ ((i = .acc a .lock ∧ stage.get i = 0)
          ∨ (∃ f, f ≠ .lock ∧ i = .acc a f ∧ stage.get i ≠ committed.get i)
          ∨ ∃ e f, i = .pulse e f ∧ (committed.energy.pulse.get e).binding.toNat = a.number ∧ stage.get i ≠ committed.get i))
  ∧ (∀ (token : Option Port) (stage : Table) (i : Item) (reason : FailReason), itemFault token stage i = some reason ↔
      (reason = .range ∧ i.inRange (stage.get i) = false)
      ∨ (i.inRange (stage.get i) = true
        ∧ ((reason = .levelOrder ∧ ∃ d, i = .det d .release ∧ (stage.det.get d).enable = 1
            ∧ (if d = .uDip ∨ d = .uIntr then (stage.det.get d).release.toNat ≤ (stage.det.get d).onset.toNat
              else (stage.det.get d).onset.toNat ≤ (stage.det.get d).release.toNat))
          ∨ (reason = .holdInUse ∧ ∃ p, i = .host p .holdPermit ∧ stage.get i = 0 ∧ token = some p))))
  ∧ ∀ (i : Item) (v : W16), i.inRange v = true ↔
      match i with
      | .front .nominal => v = 50 ∨ v = 60
      | .cap .pre => ∃ n, 1 ≤ n ∧ n ≤ 15 ∧ v = BitVec.ofNat 16 (64 * n)
      | .pulse _ .width => v = 10 ∨ v = 20 ∨ v = 40 ∨ v = 80
      | .pulse _ .k => v ≠ 0
      | .det _ .onsetCount => 1 ≤ v.toNat ∧ v.toNat ≤ 16
      | .det _ .releaseCount => 1 ≤ v.toNat ∧ v.toNat ≤ 64
      | .cap .chainLimit => 1 ≤ v.toNat ∧ v.toNat ≤ 4
      | .acc _ .creepCount => 2 ≤ v.toNat ∧ v.toNat ≤ 32
      | .cap .xtrigIn => v.toNat ≤ 2
      | .acc _ .source => v.toNat ≤ 7
      | .acc _ .direction => v.toNat ≤ 3
      | .pulse _ .binding => v.toNat ≤ 4
      | .host _ .idleLimit => v.toNat ≤ 255
      | .det _ .enable | .det _ .trigOnset | .det _ .trigRelease | .cap .armed | .cap .xtrigOut | .acc _ .lock
      | .host _ .holdPermit | .rateMode => v = 0 ∨ v = 1
      | .front .gainU | .front .gainIA | .front .gainIB | .det _ .onset | .det _ .release | .acc _ .creepLevel => True

/-- R147, R114: a scrub pass that is due and finds the stored code matching, or the fault set already, changes nothing but when the next is
due; a mismatch sets the fault, hands INTEGRITY_FAULT to the journal and the fact to the Energy Block. The passes are 100 ms apart, counted in
ticks (log 7), and a pass is taken at its tick or later (log 6). -/
def Obligations.IntegrityScrub : Prop :=
  ∀ s : State, s.pins.resetLow = false → reached s.front.tick s.config.nextScrub = true →
    let next := s.config.nextScrub + 100
    (s.config.committed.code = s.config.code ∨ s.config.fault = true →
      exec .integrityScrub s = .next { s with config := { s.config with nextScrub := next } }.drive)
    ∧ (s.config.committed.code ≠ s.config.code → s.config.fault = false →
      exec .integrityScrub s = .next { s with
        config := { s.config with nextScrub := next, fault := true }
        journal := { s.journal with waiting := s.journal.waiting ++
          ([⟨.configController, s.front.tick, s.front.hc, .integrityFault s.config.generation⟩] : List Append) }
        energy := { s.energy with handed := s.energy.handed ++ ([.fault] : List EnergyEvent) } }.drive)

/-- R75, R148, R176: the lease holder's RESTART with the current generation makes the part RESTART_PENDING for 50 ms from now, counted in ticks
(log 7), and its CLEAR_TALLY zeroes the tallies of the detectors in the mask and appends TALLY_CLEARED, whose number the response carries. With
the lease FREE or held by another both are refused whatever they carry; of the holder another generation and a bad mask are. -/
def Obligations.RestartAndClearTally : Prop :=
  ∀ (s : State) (p : Port) (tag : Byte) (x : Session), s.readyFor p → s.session p = some x →
    let refused := fun (c : Instr) (status : Status) => exec c s = .next (s.onlyReplied p tag x (Reply.refuse status))
    (∀ t : Tenure, s.lease = some t → t.holder = p →
      exec (.restart p tag s.config.generation) s = .next
        ({ s.setSession p (some (s.touched p x)) with
          config := { s.config with restartDue := some (s.front.tick + 50) } }.replied p tag
            { status := .ok, payload := [], restartOk := true })
      ∧ (∀ generation, generation ≠ s.config.generation → refused (.restart p tag generation) .badValue)
      ∧ (∀ mask : Byte, mask ≠ 0 → mask &&& 0xC0 = 0 → s.journal.waiting = [] → s.journal.tally.isEmpty = true →
        s.journal.entries.length < 384 →
        let clear := fun (d : DetId) (y : Detector) =>
          if mask.getLsbD d.number then { y with tallyCount := 0, tallySum := 0 } else y
        exec (.clearTally p tag mask) s = .next
          ({ s.setSession p (some (s.touched p x)) with
            det := { s.det with dets := s.det.dets.mapWith clear }
            journal := { s.journal with
              entries := s.journal.entries ++ ([{ seq := s.journal.nextSeq, tick := s.front.tick, hc := s.front.hc
                                                  body := .tallyCleared mask p }] : List Entry)
              nextSeq := seqSucc s.journal.nextSeq } }.replied p tag (Reply.ok (be32 s.journal.nextSeq))))
      ∧ ∀ mask : Byte, (mask = 0 ∨ mask &&& 0xC0 ≠ 0) → refused (.clearTally p tag mask) .badValue)
    ∧ ((∀ t, s.lease = some t → t.holder ≠ p) →
      (∀ generation, refused (.restart p tag generation) .notLeaseholder)
      ∧ ∀ mask, refused (.clearTally p tag mask) .notLeaseholder)

/-! ### Sessions (9.5) -/

/-- R25, R159, R172, R174: OPEN_SESSION on a port without a session, its checks passed, makes the session's record, with the HOLD token if it
was asked for, and appends SESSION_EVENT OPENED at once (log 4); the response carries the epoch, the generation, `next_seq`, the cursor and the
retention. The first idle deadline is set from the tick and the idle limit at which the frame became complete, also of a frame that port C held. -/
def Obligations.SessionOpens : Prop :=
  let admitted := fun (s : State) (p : Port) (start retention : Byte) =>
    s.session p = none ∧ start.toNat ≤ 1 ∧ retention.toNat ≤ 1
    ∧ (retention = 1 → (s.config.committed.host.get p).holdPermit = 1 ∧ ∀ q, s.token = some q → q = p)
    ∧ s.journal.waiting = [] ∧ s.journal.tally.isEmpty = true ∧ s.journal.entries.length < 384
  let opened := fun (s : State) (p : Port) (tag start retention : Byte) (deadline : Option W32) =>
    let j := s.journal
    let cursor := if start = 1 then j.oldestSeq else j.nextSeq
    let record : Session :=
      { mask := 0x80, cursor := cursor, ackPoint := cursor, overrunCount := 0
        latches :=
          { overrun := false, leaseGranted := false, captureReclaimed := false, pulseLost := false, snapshotDone := false }
        attnMask := 0, watermark := 1, baselines := PerAcc.all 0, readSet := [], idleDeadline := deadline }
    { s with
        sessions := s.sessions.set p (some record)
        token := if retention = 1 then some p else s.token
        journal := { j with
          entries := j.entries ++ ([{ seq := j.nextSeq, tick := s.front.tick, hc := s.front.hc
                                      body := .sessionEvent p .opened }] : List Entry)
          nextSeq := seqSucc j.nextSeq } }.replied p tag
            (Reply.ok (be16 j.epoch ++ be16 s.config.generation ++ be32 j.nextSeq ++ be32 cursor ++ [retention]))
  (∀ (s : State) (p : Port) (tag start retention : Byte), s.readyFor p → admitted s p start retention →
    let limit := (s.config.committed.host.get p).idleLimit.toNat
    exec (.openSession p tag start retention) s = .next
      (opened s p tag start retention (if limit = 0 then none else some (s.front.tick + BitVec.ofNat 32 (1000 * limit)))))
  ∧ ∀ (s : State) (r : Response) (tag start retention : Byte) (deadline : Option W32), s.pins.resetLow = false →
    s.config.restartDue = none → s.portC.sending = some r → r.restartOk = false →
    s.portC.held = some { frame := frameOf tag (.openSession start retention), deadline := deadline } → admitted s .c start retention →
    let idle := { s with portC := { s.portC with sending := none, held := none } }
    exec .responseSent s = .next (opened idle .c tag start retention deadline)

/-- R25, R35: an OPEN_SESSION whose checks fail is refused and opens nothing: its arguments first, then an open session, then the permit for
HOLD, then a HOLD token held by another. -/
def Obligations.SessionRefused : Prop :=
  ∀ (s : State) (p : Port) (tag start retention : Byte), s.readyFor p →
    let run := exec (.openSession p tag start retention) s
    let argsOk := start.toNat ≤ 1 ∧ retention.toNat ≤ 1
    let permit := (s.config.committed.host.get p).holdPermit
    (∀ x, s.session p = some x → ¬ argsOk → run = .next (s.onlyReplied p tag x (Reply.refuse .badValue)))
    ∧ (s.session p = none → ¬ argsOk → run = .next (s.replied p tag (Reply.refuse .badValue)))
    ∧ (∀ x, s.session p = some x → argsOk → run = .next (s.onlyReplied p tag x (Reply.refuse .alreadyOpen)))
    ∧ (s.session p = none → argsOk → retention = 1 → permit ≠ 1 → run = .next (s.replied p tag (Reply.refuse .notPermitted)))
    ∧ ∀ q, s.session p = none → argsOk → retention = 1 → permit = 1 → s.token = some q → q ≠ p →
        run = .next (s.replied p tag (Reply.refuse .holdTaken))

/-- R170, R173 with R26, R42, R96, R97, R99, R126, R136, R137: a session that ends by CLOSE_SESSION, by its idle deadline, at its tick or later
(log 6), or by a break leaves no record, no HOLD token, no place in a holder set, no lease and no place in the queue, and no place in a pending
snapshot; no other session ends. A lease it held passes on or becomes FREE, a lease and a queue it had no part in stay, and a STARVED store tries
again. With room for what waits and what the end appends, the journal takes what waits, then the teardown's entries, each block's in their own
order and the blocks among themselves in any (log 10), then SESSION_EVENT, at once (log 4); CLOSE_SESSION answers with its number. With a full
journal whose oldest entry another HOLD session pins, nothing is stored and the answer is 0. A break also starts the link of port C over. -/
def Obligations.SessionEnds : Prop :=
  let ended := fun (s t : State) (p : Port) (event : SessionEventKind) (n : W32) =>
    let own : W32 × W32 × EntryBody := (s.front.tick, s.front.hc, .sessionEvent p event)
    let lease := s.leaseEntriesAtEnd p
    let room := s.journal.tally.isEmpty = true ∧ s.journal.entries.length + s.journal.waiting.length + 4 ≤ 384
    t.session p = none ∧ (∀ q, q ≠ p → (t.session q).isSome = (s.session q).isSome)
    ∧ t.token = s.tokenWithout p
    ∧ (∀ c ∈ t.store.sealedCaptures, c.holders.get p = false)
    ∧ t.lease = (s.leaseWithout p).1 ∧ t.queue = (s.leaseWithout p).2
    ∧ (∀ l, t.lease = some l → l.holder ≠ p) ∧ (∀ w ∈ t.queue, w.host ≠ p)
    ∧ ((∀ l, s.lease = some l → l.holder ≠ p) → (∀ w ∈ s.queue, w.host ≠ p) → t.lease = s.lease ∧ t.queue = s.queue)
    ∧ t.energy = { s.energy with
        pendingSnapshot := s.energy.pendingSnapshot.map fun y => { y with requesters := y.requesters.set p false } }
    ∧ t.front = s.front ∧ t.det = s.det ∧ t.config = s.config ∧ t.pins = s.pins ∧ t.pending = s.pending
    ∧ t.journal.epoch = s.journal.epoch ∧ t.journal.waiting = []
    ∧ (t.journal.entries.getLast? = some { seq := n, tick := s.front.tick, hc := s.front.hc, body := .sessionEvent p event }
      ∨ (n = 0 ∧ 1 ≤ t.journal.tally.counts.session))
    ∧ (∀ e es q x, s.journal.entries = e :: es → s.journal.entries.length = 384 → q ≠ p → s.token = some q → s.session q = some x →
      x.pinsEntry s.journal.nextSeq e = true →
      n = 0 ∧ t.journal.entries = s.journal.entries ∧ t.journal.nextSeq = s.journal.nextSeq)
    ∧ ∀ reclaimed, s.RetryAtEnd p reclaimed →
      (let order := s.capturesWithout p
       t.store = { s.store with
          sealedCaptures := match reclaimed with
            | none => order
            | some (c, _) => order.filter fun y => decide (y.id ≠ c.id)
          mode := match reclaimed with | none => s.store.mode | some (_, i) => .live i []
          inbox := s.store.inbox ++ if s.token = some p then [CapEvent.tokenFree] else [] })
      ∧ (∀ q x, q ≠ p → s.session q = some x →
        let latches := { x.latches with
          leaseGranted := x.latches.leaseGranted || decide (s.grantedAtEnd p = some q)
          captureReclaimed := x.latches.captureReclaimed || reclaimed.any fun r => r.1.holders.get q }
        ∃ cursor ackPoint overrunCount overrun,
          t.session q = some { x with
            cursor := cursor, ackPoint := ackPoint, overrunCount := overrunCount, latches := { latches with overrun := overrun } }
          ∧ (room → t.session q = some { x with latches := latches }))
      ∧ (room → ∃ l1 l2, lease = l1 ++ l2 ∧
        let torn := l1 ++ (reclaimed.toList.map fun r => .captureReclaimed r.1.id r.1.holders) ++ l2
        let bodies := (s.journal.waiting.map fun a => (a.tick, a.hc, a.body))
          ++ (torn.map fun (b : EntryBody) => (s.front.tick, s.front.hc, b)) ++ [own]
        t.journal.entries = s.journal.entries ++ entriesFrom s.journal.nextSeq bodies
        ∧ t.journal.entries.getLast? = some { seq := n, tick := s.front.tick, hc := s.front.hc, body := .sessionEvent p event }
        ∧ t.journal.nextSeq = seqSucc n ∧ t.journal.tally = s.journal.tally)
  (∀ (s : State) (p : Port) (tag : Byte) (x : Session), s.readyFor p → s.LeaseLaw → s.session p = some x →
    ∃ t n, exec (.closeSession p tag) s = .next t ∧ ended s t p .closed n
      ∧ t.links = (s.answer p (responseOf tag (Reply.ok (be32 n)))).links
      ∧ t.portC = (s.answer p (responseOf tag (Reply.ok (be32 n)))).portC)
  ∧ (∀ (s : State) (p : Port) (x : Session) (due : W32), s.pins.resetLow = false → s.LeaseLaw → s.session p = some x →
    x.idleDeadline = some due → reached s.front.tick due = true →
    ∃ t n, exec (.idleExpiry p) s = .next t ∧ ended s t p .expired n ∧ t.links = s.links ∧ t.portC = s.portC)
  ∧ ∀ s : State, s.pins.resetLow = false → s.LeaseLaw →
    ∃ t, exec .lineBreak s = .next t
      ∧ t.portC = { s.portC with
          counters := { badLead := 0, cut := 0, timeout := 0, length := 0, checkFail := 0 }
          overlap := 0, rateSpan := none, phase := .hunting, receipt := [], sending := none, held := none }
      ∧ t.links = s.links
      ∧ (s.session .c = none → t = { s with portC := t.portC, attnLow := t.attnLow })
      ∧ ∀ x, s.session .c = some x → ∃ n, ended s t .c .portReset n

/-! ### Ports byte by byte (chapter 9) -/

/-- R162, R163, R165: a select that falls begins a transaction, its first byte says what it is, and a select that rises ends it: an unfinished
request counts CUT, and an unfinished fetch starts over next time. -/
def Obligations.SyncTransaction : Prop :=
  ∀ (s : State) (p : SyncId), s.pins.resetLow = false →
    let k := s.links.get p
    let withLink := fun (k' : SyncLink) => { s with links := s.links.set p k' }
    (s.pins.selLow.get p = false → exec (.selectFall p) s = .next
      { withLink { k with phase := .first, receipt := [], sdo := some 0xFF } with
        pins := { s.pins with selLow := s.pins.selLow.set p true } }.drive)
    ∧ (s.pins.selLow.get p = true → exec (.selectRise p) s = .next
      { withLink { k with
          phase := .none, receipt := [], sdo := none
          fetchPos := if k.phase = TransactionPhase.fetch then 0 else k.fetchPos
          counters := if k.phase = TransactionPhase.request then { k.counters with cut := min 255 (k.counters.cut + 1) } else k.counters } with
        pins := { s.pins with selLow := s.pins.selLow.set p false } }.drive)
    ∧ (k.phase = .first → exec (.firstByte p 0x55) s = .next
      (withLink { k with phase := .request, receipt := [0x55], lastByte := s.front.tick }).drive)
    ∧ (k.phase = .first → exec (.firstByte p 0) s = .next (withLink { k with phase := .fetch, receipt := [] }).drive)
    ∧ ∀ b : Byte, k.phase = .first → b ≠ 0x55 → b ≠ 0 → exec (.firstByte p b) s = .next
      (withLink { k with
        phase := .ignore, receipt := [], counters := { k.counters with badLead := min 255 (k.counters.badLead + 1) } }).drive

/-- R161, R163, R168: a byte in a request transaction joins the frame in receipt; a length byte above 60 ends it with LENGTH counted; and the
check byte of a request's good frame is that request, taken on the port with the rest of the transaction ignored. When 8 ms pass since the
last byte, counted in ticks (log 7), the frame ends at that tick or later (log 6) with TIMEOUT counted; on port C the sender brings that event
only when no start bit has begun in them (log 34). -/
def Obligations.RequestBytes : Prop :=
  (∀ (s : State) (p : SyncId) (b : Byte), s.pins.resetLow = false → (s.links.get p).phase = .request →
    let k := s.links.get p
    let withLink := fun (k' : SyncLink) => { s with links := s.links.set p k' }
    (readReceipt (k.receipt ++ [b]) = .more → exec (.requestByte p b) s = .next
      (withLink { k with receipt := k.receipt ++ [b], lastByte := s.front.tick }).drive)
    ∧ (k.receipt.length = 3 → 60 < b.toNat → exec (.requestByte p b) s = .next
      (withLink { k with
        phase := .ignore, receipt := [], counters := { k.counters with length := min 255 (k.counters.length + 1) } }).drive)
    ∧ ∀ (tag : Byte) (r : Request), r.wellFormed = true →
      let f := frameOf tag r
      k.receipt = [0x55, tag, f.code, f.length] ++ f.payload → b = f.check →
      exec (.requestByte p b) s = exec (commandOf (syncPort p) tag r) (withLink { k with phase := .ignore, receipt := [] }))
  ∧ (∀ (s : State) (p : SyncId), s.pins.resetLow = false →
    let k := s.links.get p
    k.phase = .request → reached s.front.tick (k.lastByte + 8) = true → exec (.frameGapTimeout (syncPort p)) s = .next
      { s with links := s.links.set p { k with
          phase := .ignore, receipt := [], counters := { k.counters with timeout := min 255 (k.counters.timeout + 1) } } }.drive)
  ∧ ∀ s : State, s.pins.resetLow = false → s.portC.phase = .inFrame → reached s.front.tick (s.portC.lastByte + 8) = true →
    exec (.frameGapTimeout .c) s = .next
      { s with portC := { s.portC with
          phase := .hunting, receipt := []
          counters := { s.portC.counters with timeout := min 255 (s.portC.counters.timeout + 1) } } }.drive

/-- R149, R165: a fetch shifts out the pending response byte by byte, and with its last byte the response is delivered and gone; with none
pending it shifts out $FF. The delivery of a RESTART's OK is the restart. -/
def Obligations.FetchByte : Prop :=
  ∀ (s : State) (p : SyncId), s.pins.resetLow = false → (s.links.get p).phase = .fetch →
    let k := s.links.get p
    let withLink := fun (k' : SyncLink) => { s with links := s.links.set p k' }
    (k.pending = none → exec (.fetchByte p) s = .next (withLink { k with sdo := some 0xFF }).drive)
    ∧ ∀ r b, k.pending = some r → r.bytes[k.fetchPos]? = some b →
      (k.fetchPos + 1 < r.bytes.length → exec (.fetchByte p) s = .next
        (withLink { k with sdo := some b, fetchPos := k.fetchPos + 1 }).drive)
      ∧ (k.fetchPos + 1 = r.bytes.length → r.restartOk = false → exec (.fetchByte p) s = .next
        (withLink { k with sdo := some b, fetchPos := 0, pending := none }).drive)
      ∧ (k.fetchPos + 1 = r.bytes.length → r.restartOk = true → exec (.fetchByte p) s = .next
        (State.afterReset .request (idSucc s.journal.epoch) s.config.committed.energy
          (s.energy.acc.mapWith fun _ r => (r.value, r.residue)) (s.energy.engines.mapWith fun _ e => e.residue)
          s.pins s.draws s.pending).drive)

/-- R166, R167, R168: on port C a lead pattern within the rates locks the bit time and starts a frame while UNLOCKED, or while hunting in
TRACKING, where one outside them counts BAD_LEAD, as does a byte that is no part of a lead (log 20); bytes are received at the locked bit time, and a frame's good last byte is the request. -/
def Obligations.PortCReceives : Prop :=
  let started := fun (s : State) (span : Option Nat) =>
    { s with portC := { s.portC with rateSpan := span, phase := .inFrame, receipt := [0x55], lastByte := s.front.tick } }
  let badLead := fun (s : State) => { s with portC := { s.portC with
    counters := { s.portC.counters with badLead := min 255 (s.portC.counters.badLead + 1) } } }
  (∀ (s : State) (i1 i2 i3 i4 : Nat) (edge : Option Nat), s.pins.resetLow = false →
    let span := i1 + i2 + i3 + i4
    let pattern := (∀ i ∈ [i1, i2, i3, i4], 7 * span ≤ 32 * i ∧ 32 * i ≤ 9 * span) ∧ ∀ t, edge = some t → 7 * span ≤ 32 * t
    let good := 1200 * span ≤ 8000000000 ∧ 8000000000 ≤ 230400 * span
    let run := exec (.leadPattern i1 i2 i3 i4 edge) s
    (¬ pattern → run = .next s.drive)
    ∧ (pattern → good → s.portC.rateSpan = none → run = .next (started s (some span)).drive)
    ∧ (pattern → ¬ good → s.portC.rateSpan = none → run = .next s.drive)
    ∧ (∀ old, pattern → s.portC.rateSpan = some old → s.portC.phase = .hunting → s.config.committed.rateMode = 1 →
        (good → run = .next (started s (some span)).drive) ∧ (¬ good → run = .next (badLead s).drive))
    ∧ (∀ old, s.portC.rateSpan = some old → (s.config.committed.rateMode ≠ 1 ∨ s.portC.phase = .inFrame) → run = .next s.drive))
  ∧ ∀ (s : State) (b : Byte), s.pins.resetLow = false →
    let k := s.portC
    let withLink := fun (k' : AsyncLink) => { s with portC := k' }
    (k.rateSpan = none → ∀ high, exec (.portCByte b high) s = .next s.drive)
    ∧ ∀ span, k.rateSpan = some span →
      (k.phase = .hunting → b = 0x55 → s.config.committed.rateMode ≠ 1 →
        exec (.portCByte b true) s = .next (started s (some span)).drive)
      ∧ (k.phase = .hunting → (b ≠ 0x55 ∨ s.config.committed.rateMode = 1) → exec (.portCByte b true) s = .next (badLead s).drive)
      ∧ (k.phase = .hunting → exec (.portCByte b false) s = .next s.drive)
      ∧ (k.phase = .inFrame → exec (.portCByte b false) s = .next
        (withLink { k with phase := .hunting, receipt := [], counters := { k.counters with cut := min 255 (k.counters.cut + 1) } }).drive)
      ∧ (k.phase = .inFrame → readReceipt (k.receipt ++ [b]) = .more → exec (.portCByte b true) s = .next
        (withLink { k with receipt := k.receipt ++ [b], lastByte := s.front.tick }).drive)
      ∧ (k.phase = .inFrame → k.receipt.length = 3 → 60 < b.toNat → exec (.portCByte b true) s = .next
        (withLink { k with
          phase := .hunting, receipt := [], counters := { k.counters with length := min 255 (k.counters.length + 1) } }).drive)
      ∧ ∀ (tag : Byte) (r : Request), r.wellFormed = true →
        let f := frameOf tag r
        k.phase = .inFrame → k.receipt = [0x55, tag, f.code, f.length] ++ f.payload → b = f.check →
        exec (.portCByte b true) s = exec (commandOf .c tag r) (withLink { k with phase := .hunting, receipt := [] })

/-- R161, R164, R169, R149: an answer becomes the pending response of port A or B, counting UNFETCHED over an older one, and is sent at once
on port C. There a frame that completes meanwhile is held, with the idle deadline that its completion gives (R174), and a further one counts
OVERLAP; when the response has been sent, a held request
is taken, and the delivery of a RESTART's OK is the restart. -/
def Obligations.AnswersOnPorts : Prop :=
  (∀ (s : State) (p : SyncId) (r : Response), s.answer (syncPort p) r =
    let k := s.links.get p
    { s with links := s.links.set p { k with
        pending := some r, fetchPos := 0
        unfetched := if k.pending = none then k.unfetched else min 255 (k.unfetched + 1) } })
  ∧ (∀ (s : State) (r : Response), s.answer .c r = { s with portC := { s.portC with sending := some r } })
  ∧ ∀ (s : State) (r : Response), s.pins.resetLow = false → s.portC.sending = some r →
    (r.restartOk = false → s.portC.held = none → exec .responseSent s = .next { s with portC := { s.portC with sending := none } }.drive)
    ∧ (r.restartOk = true → exec .responseSent s = .next
        (State.afterReset .request (idSucc s.journal.epoch) s.config.committed.energy
          (s.energy.acc.mapWith fun _ r => (r.value, r.residue)) (s.energy.engines.mapWith fun _ e => e.residue)
          s.pins s.draws s.pending).drive)
    ∧ ∀ (tag : Byte) (q : Request), q.wellFormed = true →
      let limit := (s.config.committed.host.get .c).idleLimit.toNat
      (∀ deadline, r.restartOk = false → s.portC.held = some { frame := frameOf tag q, deadline := deadline } →
        s.config.restartDue = none → ((reqCodeOf q).needsSession = true → (s.session .c).isSome = true) →
        let idle := { s with portC := { s.portC with sending := none, held := none } }
        let out := idle.perform .c deadline q
        exec .responseSent s = .next ((out.1.answer .c (responseOf tag out.2)).drive))
      ∧ (s.portC.held = none → exec (commandOf .c tag q) s = .next
          { s.restartIdle .c with portC := { s.portC with
              held := some { frame := frameOf tag q, deadline := if limit = 0 then none else some (s.front.tick + BitVec.ofNat 32 (1000 * limit)) } } }.drive)
      ∧ (∀ f, s.portC.held = some f → exec (commandOf .c tag q) s = .next
          { s.restartIdle .c with portC := { s.portC with overlap := min 255 (s.portC.overlap + 1) } }.drive)

/-- R175, R161, R174: a complete frame sets the idle deadline of its port's session and is then judged by five checks in order, of which the
first that fails is answered and counted if it is the check byte; no block takes it. A frame that fails none of them is its request, which
the model's BAD_FRAME admits (log 18). -/
def Obligations.BadFrames : Prop :=
  ∀ (s : State) (p : Port) (tag code : Byte) (payload : List Byte) (check : Byte), s.pins.resetLow = false →
    (p = .c → s.portC.sending = none) →
    let f : RequestFrame := { tag := tag, code := code, payload := payload, check := check }
    let base := s.onSession p (s.touched p)
    let run := exec (.badFrame p tag code payload check) s
    (f.sum ≠ 0xFF → run = .next
      ((base.onCounters p fun c => { c with checkFail := min 255 (c.checkFail + 1) }).replied p tag (Reply.refuse .checkFail)))
    ∧ (f.sum = 0xFF → s.config.restartDue ≠ none → run = .next (base.replied p tag (Reply.refuse .restarting)))
    ∧ (f.sum = 0xFF → s.config.restartDue = none → (∀ c : ReqCode, c.byte ≠ code) →
        run = .next (base.replied p tag (Reply.refuse .badCode)))
    ∧ ∀ c : ReqCode, f.sum = 0xFF → s.config.restartDue = none → c.byte = code →
      (c.lengthOk payload.length = false → run = .next (base.replied p tag (Reply.refuse .badLength)))
      ∧ (c.lengthOk payload.length = true → c.needsSession = true → s.session p = none →
          run = .next (base.replied p tag (Reply.refuse .noSession)))
      ∧ (c.lengthOk payload.length = true → ∀ r, c.read payload = some r → run = exec (commandOf p tag r) s)

/-- R181, 10.4, 10.5: the bytes of a request's frame, lead first, are a frame in receipt at every proper part and complete with the check
byte, whose code and payload read back as the request and whose bytes after the lead sum to $FF. So do those of a response. -/
def Obligations.FrameRoundTrip : Prop :=
  (∀ (tag : Byte) (r : Request), r.wellFormed = true →
    let f := frameOf tag r
    let bytes := [0x55, tag, f.code, byteOf f.payload.length] ++ f.payload ++ [f.check]
    readReceipt bytes = .complete f ∧ (∀ n, n < bytes.length → readReceipt (bytes.take n) = .more)
    ∧ byteSum (bytes.drop 1) = 0xFF
    ∧ (∃ c, ReqCode.ofByte f.code = some c ∧ c.lengthOk f.payload.length = true ∧ c.read f.payload = some r))
  ∧ ∀ (tag : Byte) (r : Reply), ∃ check,
      (responseOf tag r).bytes = [0xAA, tag, r.status.code, byteOf r.payload.length] ++ r.payload ++ [check]
      ∧ byteSum ((responseOf tag r).bytes.drop 1) = 0xFF

/-- R176, R177, R154: a request that its block refuses leaves everything as it was but what belongs to the frame, the idle deadline and the
answer; a refused request of the lease still clears the requester's LEASE_GRANTED. APPEND_NOTE's NOT_STORED is no refusal (R40), and QUEUED
joins the queue (R133). -/
def Obligations.RefusalsChangeNothing : Prop :=
  ∀ (s : State) (p : Port) (tag : Byte) (r : Request), s.readyFor p → r.wellFormed = true →
    ((reqCodeOf r).needsSession = true → (s.session p).isSome = true) →
    let base := s.onSession p (s.touched p)
    let reply := (base.perform p (s.deadlineFrom p) r).2
    reply.status ≠ .ok → reply.status ≠ .queued → (∀ data, r ≠ .appendNote data) →
    exec (commandOf p tag r) s = .next (base.replied p tag reply)
    ∨ (((∃ seconds wait, r = .leaseTake seconds wait) ∨ r = .leaseRelease) ∧ exec (commandOf p tag r) s = .next
        ((base.onSession p fun x => { x with latches := { x.latches with leaseGranted := false } }).replied p tag reply))

/-! ### Readers (chapter 2) -/

/-- R28 to R31, R183: READ_ENTRIES delivers the longest run of the subscribed entries from the cursor that its count and 122 bytes have room
for, moves the cursor to where the walk ended, and with auto-ack the ack point to the cursor; it reports the overrun latch, clears it, and
says whether more is deliverable. -/
def Obligations.ReadEntries : Prop :=
  (∀ (s : State) (p : Port) (tag b : Byte) (x : Session), s.readyFor p → s.session p = some x →
    let count := (b &&& 0x0F).toNat
    (1 ≤ count ∧ count ≤ 8 ∧ b &&& 0x70 = 0 →
      let j := s.journal
      let r := walk x.mask count 0 0 (j.entries.dropWhile fun e => decide (distance j.nextSeq x.cursor < distance j.nextSeq e.seq))
      let cursor := r.2.getD j.nextSeq
      let y := { s.touched p x with
        cursor := cursor
        ackPoint := if b.getLsbD 7 then cursor else x.ackPoint
        latches := { x.latches with overrun := false } }
      exec (.readEntries p tag b) s = .next ((s.setSession p (some y)).replied p tag
        (Reply.ok ((bitAt 0 x.latches.overrun ||| bitAt 1 (y.deliverableCount j != 0)) :: byteOf r.1.length
          :: r.1.flatMap Entry.bytes))))
    ∧ (¬ (1 ≤ count ∧ count ≤ 8 ∧ b &&& 0x70 = 0) →
      exec (.readEntries p tag b) s = .next (s.onlyReplied p tag x (Reply.refuse .badValue))))
  ∧ (∀ (mask : Byte) (max : Nat) (l : List Entry),
      let r := walk mask max 0 0 l
      let size := fun (es : List Entry) => (es.map Entry.wireSize).sum
      r.1.length ≤ max ∧ size r.1 ≤ 122
      ∧ ∃ rest, l.filter (fun e => maskHas mask e.body.cls) = r.1 ++ rest ∧ r.2 = rest.head?.map Entry.seq
        ∧ ∀ e, rest.head? = some e → r.1.length = max ∨ 122 < size r.1 + e.wireSize)
  ∧ ∀ e : Entry, e.bytes.length = e.wireSize ∧ 15 ≤ e.wireSize
      ∧ ((∀ host data, e.body = .note host data → data.length = 16) → e.wireSize ≤ 41)

/-- R32 to R36, R26: what ACK_ENTRIES, REWIND, SET_SUBSCRIPTION and SET_RETENTION do to the requester's record and to the HOLD token, whose
release is reported to the Capture Store. -/
def Obligations.ReaderRequests : Prop :=
  ∀ (s : State) (p : Port) (tag : Byte) (x : Session), s.readyFor p → s.session p = some x →
    let y := s.touched p x
    let next := s.journal.nextSeq
    let permit := (s.config.committed.host.get p).holdPermit
    (∀ seq : W32, seq ≠ 0 → distance next x.cursor < distance next seq → distance next (seqSucc seq) < distance next x.ackPoint →
      exec (.ackEntries p tag seq) s = .next
        ((s.setSession p (some { y with ackPoint := seqSucc seq })).replied p tag (Reply.ok (be32 (seqSucc seq)))))
    ∧ (∀ seq : W32, seq ≠ 0 → distance next x.cursor < distance next seq → distance next x.ackPoint ≤ distance next (seqSucc seq) →
      exec (.ackEntries p tag seq) s = .next (s.onlyReplied p tag x (Reply.ok (be32 x.ackPoint))))
    ∧ (∀ seq : W32, seq ≠ 0 → distance next seq ≤ distance next x.cursor →
      exec (.ackEntries p tag seq) s = .next (s.onlyReplied p tag x (Reply.refuse .badAck)))
    ∧ exec (.ackEntries p tag 0) s = .next (s.onlyReplied p tag x (Reply.refuse .badValue))
    ∧ exec (.rewind p tag) s = .next
        ((s.setSession p (some { y with cursor := x.ackPoint })).replied p tag (Reply.ok (be32 x.ackPoint)))
    ∧ (∀ mask, exec (.setSubscription p tag mask) s = .next
        ((s.setSession p (some { y with ackPoint := x.cursor, mask := mask ||| 0x80 })).replied p tag (Reply.ok [mask ||| 0x80])))
    ∧ (permit = 1 → (∀ q, s.token = some q → q = p) → exec (.setRetention p tag 1) s = .next
        ({ s.setSession p (some y) with token := some p }.replied p tag (Reply.ok [])))
    ∧ (permit ≠ 1 → exec (.setRetention p tag 1) s = .next (s.onlyReplied p tag x (Reply.refuse .notPermitted)))
    ∧ (∀ q, permit = 1 → s.token = some q → q ≠ p →
        exec (.setRetention p tag 1) s = .next (s.onlyReplied p tag x (Reply.refuse .holdTaken)))
    ∧ (s.token = some p → exec (.setRetention p tag 0) s = .next
        ({ s.setSession p (some y) with
          token := none, store := { s.store with inbox := s.store.inbox ++ [CapEvent.tokenFree] } }.replied p tag (Reply.ok [])))
    ∧ (s.token ≠ some p → exec (.setRetention p tag 0) s = .next (s.onlyReplied p tag x (Reply.ok [])))
    ∧ ∀ retention : Byte, 1 < retention.toNat →
        exec (.setRetention p tag retention) s = .next (s.onlyReplied p tag x (Reply.refuse .badValue))

/-! ### Requests that read and requests on one block -/

/-- R41, R77, R101, R102, R103, R116, R179, R182, R184: the requests that read change nothing but the idle deadline, and answer from the state as
it stands, each field in its place; READ_FRAMES is refused in the order of R101, and STORE_STATUS of an id that no record holds with GONE. That
the slot list of a record is filled up with $FF is the model's (log 25). -/
def Obligations.StatusRequests : Prop :=
  ∀ (s : State) (p : Port) (tag : Byte) (x : Session), s.readyFor p → s.session p = some x →
    let st := s.store
    let answers := fun (c : Instr) (payload : List Byte) => exec c s = .next (s.onlyReplied p tag x (Reply.ok payload))
    let refused := fun (c : Instr) (status : Status) => exec c s = .next (s.onlyReplied p tag x (Reply.refuse status))
    let recorded := match st.mode with | .post c => [c] | _ => []
    let modeCode : Byte := match st.mode with | .disarmed => 0 | .live _ _ => 1 | .post _ => 2 | .starved => 3
    let liveSlot := match st.mode with | .live i _ => some i | _ => none
    let liveCount := match st.mode with | .live _ ring => ring.length | _ => 0
    let postSlot := match st.mode with | .post c => c.slots.getLast? | _ => none
    let slotCode := fun (i : SlotId) => (if liveSlot = some i then 1 else if postSlot = some i then 2
      else if i ∈ (st.sealedCaptures ++ recorded).flatMap Capture.slots then 3 else 0 : Byte)
    let status := [modeCode] ++ ([0, 1, 2, 3, 4, 5, 6, 7] : List SlotId).map slotCode ++ be16n liveCount
      ++ [byteOf st.s2.armed.toNat] ++ be16 st.nextId
    let sourceCode := fun (source : TrigSource) => (match source with
      | .onset d => byteOf d.number
      | .release d => byteOf (8 + d.number)
      | .host h => 0x10 + portCode h
      | .xtrigIn => 0x18 : Byte)
    let trigger := fun (y : TrigEntry) => [sourceCode y.source] ++ be16n y.offset ++ be32 y.hc
    let flags := fun (f : CapFlags) => byteOf ((if f.shortPre then 1 else 0) + (if f.chained then 2 else 0) + if f.chainCut then 4 else 0)
    let holders := fun (h : HostSet) => byteOf ((if h.a then 1 else 0) + (if h.b then 2 else 0) + if h.c then 4 else 0)
    let record := fun (c : Capture) (state : Byte) (toRecord : Nat) =>
      be16 c.id ++ [state]
        ++ ([0, 1, 2, 3].map fun n => match c.slots[n]? with | none => (0xFF : Byte) | some (i : SlotId) => byteOf i.val)
        ++ [byteOf c.chainLimit] ++ be16n c.pre ++ be16n c.frames.length ++ be16n toRecord ++ be32 c.firstTick ++ be32 c.firstHc
        ++ [flagByte c.continueFlag, flags c.flags, byteOf c.extra, holders c.holders, byteOf (c.moreTriggers.length + 1)]
        ++ trigger c.firstTrigger ++ c.moreTriggers.flatMap trigger
    let argsBad := fun (id : W16) (part : Byte) (offset : W16) (count : Byte) => id = 0 ∨ 3 < part.toNat ∨ 1023 < offset.toNat
      ∨ count = 0 ∨ 19 < count.toNat ∨ 1024 < offset.toNat + count.toNat
    let detectorCode := fun (y : DetState) =>
      (match y with | .idle => 0 | .quiet => 1 | .onset => 2 | .active => 3 | .release => 4 : Byte)
    answers (.captureList p tag) (byteOf (st.sealedCaptures.length + recorded.length) ::
      (st.sealedCaptures.flatMap fun c => be16 c.id ++ [st.captureState c, byteOf c.slots.length, HostSet.toByte c.holders, c.flags.byte])
      ++ recorded.flatMap fun c => be16 c.id ++ [0, byteOf c.slots.length, HostSet.toByte c.holders, c.flags.byte])
    ∧ answers (.storeStatus p tag 0) status
    ∧ (∀ id c, id ≠ 0 → st.find id = some c → (∀ r ∈ recorded, r.id ≠ id) →
        answers (.storeStatus p tag id) (status ++ record c 1 0))
    ∧ (∀ id c, id ≠ 0 → c ∈ recorded → c.id = id → (∀ d ∈ st.sealedCaptures, d.id ≠ id) →
        answers (.storeStatus p tag id) (status ++ record c 0 (c.slots.length * 1024 - c.frames.length)))
    ∧ (∀ id, id ≠ 0 → (∀ c ∈ st.sealedCaptures ++ recorded, c.id ≠ id) → refused (.storeStatus p tag id) .gone)
    ∧ (∀ id c, st.find id = some c → c ∈ st.sealedCaptures ++ recorded ∧ c.id = id)
    ∧ (∀ id part offset count, argsBad id part offset count → refused (.readFrames p tag id part offset count) .badValue)
    ∧ (∀ id part offset count, ¬ argsBad id part offset count →
        ((∀ c ∈ st.sealedCaptures ++ recorded, c.id ≠ id) → refused (.readFrames p tag id part offset count) .gone)
        ∧ (∀ c ∈ recorded, c.id = id → (∀ d ∈ st.sealedCaptures, d.id ≠ id) →
          refused (.readFrames p tag id part offset count) .notSealed)
        ∧ ∀ c, st.find id = some c → (∀ r ∈ recorded, r.id ≠ id) → c.slots.length ≤ part.toNat →
          refused (.readFrames p tag id part offset count) .badValue)
    ∧ (∀ (id : W16) (part : Byte) (offset : W16) (count : Byte) (c : Capture), id ≠ 0 → part.toNat < c.slots.length → part.toNat ≤ 3 →
        1 ≤ count.toNat → count.toNat ≤ 19 → offset.toNat + count.toNat ≤ 1024 → st.find id = some c → (∀ r ∈ recorded, r.id ≠ id) →
        answers (.readFrames p tag id part offset count) (be16 id ++ [part] ++ be16 offset ++ [count]
          ++ ((c.frames.drop (part.toNat * 1024 + offset.toNat)).take count.toNat).flatMap fun f => be16 f.u ++ be16 f.ia ++ be16 f.ib))
    ∧ answers (.journalStatus p tag) (be16n s.journal.entries.length ++ be32 s.journal.oldestSeq ++ be32 s.journal.nextSeq
        ++ be16 s.journal.epoch ++ allClasses.flatMap (fun c => be16n (s.journal.tally.counts.get c)) ++ be32 s.journal.tally.first
        ++ be32 s.journal.tally.last ++ [optPortCode s.token] ++ be32 x.cursor ++ be32 x.ackPoint
        ++ [x.mask, flagByte (s.token == some p)] ++ be16n x.overrunCount ++ be16n (x.deliverableCount s.journal))
    ∧ answers (.readEnergy p tag) (be32 s.energy.lastCloseHc ++ allAccumulators.flatMap fun a =>
        be48 (s.energy.acc.get a).value ++ be48 ((s.energy.acc.get a).value - x.baselines.get a) ++ [(s.energy.acc.get a).gate.code]
          ++ be32 (s.energy.acc.get a).lastHc)
    ∧ answers (.readSet p tag) (be32 s.front.image.summary.hc ++ x.readSet.flatMap s.codeBytes)
    ∧ answers (.detectorStatus p tag) (be16 s.det.nextEpisode ++
        ([.uDip, .uSwell, .uIntr, .iaOver, .ibOver, .iResid] : List DetId).flatMap fun d =>
          let y := s.det.dets.get d
          [detectorCode y.state, byteOf y.run] ++ be16 y.episode ++ be32 y.startHc ++ be16n y.extreme ++ be24n y.age
            ++ be16n y.tallyCount ++ be24n y.tallySum)

/-- R155, R156, R154: SET_ATTENTION sets the mask and the watermark and answers with the level of the line that they give; ATTENTION_STATUS
answers with the cause set and clears the four latches other than OVERRUN. -/
def Obligations.AttentionRequests : Prop :=
  ∀ (s : State) (p : Port) (tag : Byte) (x : Session), s.readyFor p → s.session p = some x →
    (∀ mask watermark : Byte, watermark ≠ 0 →
      let y := { s.touched p x with attnMask := mask, watermark := watermark.toNat }
      let t := s.setSession p (some y)
      exec (.setAttention p tag mask watermark) s = .next
        (t.replied p tag (Reply.ok [mask, watermark, if t.causeSet p y &&& mask = 0 then 1 else 0])))
    ∧ (∀ mask : Byte, exec (.setAttention p tag mask 0) s = .next (s.onlyReplied p tag x (Reply.refuse .badValue)))
    ∧ exec (.attentionStatus p tag) s = .next
        ((s.setSession p (some { s.touched p x with
          latches := { x.latches with
            leaseGranted := false, captureReclaimed := false, pulseLost := false, snapshotDone := false } })).replied p tag
          (Reply.ok ([s.causeSet p x, x.attnMask, byteOf x.watermark] ++ be16n (x.deliverableCount s.journal))))

/-- R40, R93, R96 to R98: a note of 16 bytes is stored, or counted when the HOLD session pins the oldest entry of a full journal; CAPTURE_NOW is
a trigger of the requester's taken by the store state; RELEASE_CAPTURE takes the requester from a capture's holders, and of the HOLD session in
STARVED it lets the store reclaim. Id 0 is refused with BAD_VALUE, an id that no record holds with
GONE. That CAPTURE_NOW is taken ahead of frames and triggers that wait (log 30), the values of the fields of its
response that do not apply (R182, log 25), and the millisecond of XTRIG_OUT as one tick (log 7) are the model's. -/
def Obligations.NoteAndCaptureRequests : Prop :=
  ∀ (s : State) (p : Port) (tag : Byte) (x : Session), s.readyFor p → s.session p = some x →
    let base := s.setSession p (some (s.touched p x))
    let st := s.store
    let source := TrigSource.host p
    let recorded := match st.mode with | .post c => [c] | _ => []
    (∀ data : List Byte, data.length = 16 → s.journal.waiting = [] → s.journal.tally.isEmpty = true → s.journal.entries.length < 384 →
      exec (.appendNote p tag data) s = .next
        ({ base with journal := { s.journal with
          entries := s.journal.entries ++
            ([{ seq := s.journal.nextSeq, tick := s.front.tick, hc := s.front.hc, body := .note p data }] : List Entry)
          nextSeq := seqSucc s.journal.nextSeq } }.replied p tag (Reply.ok (be32 s.journal.nextSeq))))
    ∧ (∀ (data : List Byte) (e : Entry) (es : List Entry) (q : Port) (z : Session), data.length = 16 → s.journal.waiting = [] →
      s.journal.entries = e :: es → s.journal.entries.length = 384 → s.token = some q → s.session q = some z →
      z.pinsEntry s.journal.nextSeq e = true →
      exec (.appendNote p tag data) s = .next
        ({ base with journal := { s.journal with tally :=
          { counts := s.journal.tally.counts.set .note (min 65535 (s.journal.tally.counts.note + 1))
            first := if s.journal.tally.counts = PerClass.all 0 then s.front.tick else s.journal.tally.first
            last := s.front.tick } } }.replied p tag (Reply.refuse .notStored)))
    ∧ (∀ slot ring, st.mode = .live slot ring →
      let pre := min st.s2.pre.toNat ring.length
      ∃ t : State, exec (.captureNow p tag) s = .next
          (t.replied p tag (Reply.ok ([0] ++ be16 st.nextId ++ be16n pre ++ [0, 0xFF])))
        ∧ t.store.mode = .post
          { id := st.nextId, slots := [slot], chainLimit := st.s2.chainLimit.toNat, pre := pre, firstTick := s.front.tick
            firstHc := s.front.hc, firstTrigger := { source := source, offset := pre, hc := s.front.hc }, moreTriggers := []
            extra := 0, continueFlag := false
            flags := { shortPre := decide (pre < st.s2.pre.toNat), chained := false, chainCut := false }
            holders := PerPort.all false, frames := ring.drop (ring.length - pre) }
        ∧ t.store.xtrigOut = (if st.s2.xtrigOut = 1 then some (s.front.tick + 1) else st.xtrigOut)
        ∧ t = { base with store := { st with mode := t.store.mode, nextId := t.store.nextId, xtrigOut := t.store.xtrigOut } })
    ∧ (∀ c, st.mode = .post c →
      let c' : Capture :=
        if c.moreTriggers.length + 1 < 8 then
          { c with moreTriggers := c.moreTriggers ++ [{ source := source, offset := c.frames.length, hc := s.front.hc }] }
        else { c with extra := min 255 (c.extra + 1) }
      exec (.captureNow p tag) s = .next
        ({ base with store := { st with
          mode := .post (if c.slots.length < c.chainLimit then { c' with continueFlag := true } else c') } }.replied p tag
            (Reply.ok ([1] ++ be16 c.id ++ be16n c.frames.length ++ [if c.moreTriggers.length + 1 < 8 then 1 else 0, 0xFF]))))
    ∧ (∀ reason, (st.mode = .disarmed ∧ reason = .disarmed) ∨ (st.mode = .starved ∧ reason = .noSlot) →
      exec (.captureNow p tag) s = .next
        ({ base with journal := { s.journal with waiting := s.journal.waiting ++
          ([⟨.captureStore, s.front.tick, s.front.hc, .captureMissed source reason⟩] : List Append) } }.replied p tag
            (Reply.ok [2, 0, 0, 0, 0, 0, reason.code])))
    ∧ exec (.releaseCapture p tag 0) s = .next (s.onlyReplied p tag x (Reply.refuse .badValue))
    ∧ (∀ id, id ≠ 0 → (∀ c ∈ st.sealedCaptures ++ recorded, c.id ≠ id) →
      exec (.releaseCapture p tag id) s = .next (s.onlyReplied p tag x (Reply.refuse .gone)))
    ∧ (∀ data : List Byte, data.length ≠ 16 →
      exec (.appendNote p tag data) s = .next (s.onlyReplied p tag x (Reply.refuse .badLength)))
    ∧ ∀ (id : W16) (c : Capture), id ≠ 0 → st.find id = some c →
      (c.holders.get p = false → exec (.releaseCapture p tag id) s = .next (s.onlyReplied p tag x (Reply.refuse .notHolder)))
      ∧ (c.holders.get p = true → (st.mode ≠ .starved ∨ s.token ≠ some p) → exec (.releaseCapture p tag id) s = .next
        ({ base with store := { st with sealedCaptures := st.sealedCaptures.map fun (d : Capture) =>
          if d.id = id then { d with holders := d.holders.set p false } else d } }.replied p tag
            (Reply.ok [HostSet.toByte (c.holders.set p false)])))
      ∧ (∀ (v : Capture) (i : SlotId), c.holders.get p = true → st.mode = .starved → s.token = some p →
        (∀ k : SlotId, k ∈ st.sealedCaptures.flatMap Capture.slots) →
        let remaining := st.sealedCaptures.map fun (d : Capture) =>
          if d.id = id then { d with holders := d.holders.set p false } else d
        v.Reclaimed s.token remaining → IsLowest v.slots i →
        let after := State.withReclaimed { base with store := { st with sealedCaptures := remaining } } v s.front.tick s.front.hc
        exec (.releaseCapture p tag id) s = .next
          ({ after with store := { after.store with mode := .live i [] } }.replied p tag
            (Reply.ok [HostSet.toByte (c.holders.set p false)])))

/-- R115, R117, R119, R122: MARK_BASELINE copies the values in its mask, which must have one of its four bits and no other set, SNAPSHOT starts a snapshot or joins the pending one, and READ_SNAPSHOT
and PULSE_STATUS report and clear the requester's latch of that name. -/
def Obligations.EnergyRequests : Prop :=
  ∀ (s : State) (p : Port) (tag : Byte) (x : Session), s.readyFor p → s.session p = some x →
    let y := s.touched p x
    let base := s.setSession p (some y)
    let en := s.energy
    let latched := fun (l : Latches) => s.setSession p (some { y with latches := l })
    let pendingId : W16 := match en.pendingSnapshot with | none => 0 | some n => n.id
    (∀ mask : Byte, mask ≠ 0 → mask &&& 0xF0 = 0 →
      let baselines := x.baselines.mapWith fun a (b : W48) => if mask.getLsbD a.number then (en.acc.get a).value else b
      exec (.markBaseline p tag mask) s = .next ((s.setSession p (some { y with baselines := baselines })).replied p tag
        (Reply.ok (allAccumulators.flatMap fun a => be48 (baselines.get a)))))
    ∧ (∀ mask : Byte, (mask = 0 ∨ mask &&& 0xF0 ≠ 0) →
      exec (.markBaseline p tag mask) s = .next (s.onlyReplied p tag x (Reply.refuse .badValue)))
    ∧ (en.pendingSnapshot = none → exec (.snapshot p tag) s = .next
      ({ base with energy := { en with
        pendingSnapshot := some { id := en.nextSnapshot, requesters := (PerPort.all false).set p true }
        nextSnapshot := idSucc en.nextSnapshot } }.replied p tag (Reply.ok (be16 en.nextSnapshot ++ [0]))))
    ∧ (∀ n, en.pendingSnapshot = some n → exec (.snapshot p tag) s = .next
      ({ base with energy := { en with pendingSnapshot := some { n with requesters := n.requesters.set p true } } }.replied p tag
        (Reply.ok (be16 n.id ++ [1]))))
    ∧ exec (.readSnapshot p tag) s = .next ((latched { x.latches with snapshotDone := false }).replied p tag
        (Reply.ok (be16 en.lastSnapshot.id ++ be32 en.lastSnapshot.tick ++ be32 en.lastSnapshot.hc
          ++ [HostSet.toByte en.lastSnapshot.requesters] ++ allAccumulators.flatMap (fun a => be48 (en.lastSnapshot.values.get a))
          ++ be16 pendingId)))
    ∧ exec (.pulseStatus p tag) s = .next ((latched { x.latches with pulseLost := false }).replied p tag
        (Reply.ok (allPulseEngines.flatMap fun e =>
          let z := en.engines.get e
          let cfg := en.s3.pulse.get e
          [byteOf cfg.binding.toNat] ++ be16 cfg.k ++ [byteOf cfg.width.toNat] ++ be16n z.residue ++ [byteOf z.pending]
            ++ be16n z.lost ++ [z.phase.code])))

/-- R171, R178, R179: DEFINE_READ_SET replaces the read set by a list of catalogue codes of at most 120 bytes in all, each of which READ_SET
returns in its catalogue size; a code outside the catalogue and a larger list are refused with BAD_VALUE, more than 12 codes with BAD_LENGTH; PORT_STATUS reports the port's counters and, asked to, clears them after forming the report. -/
def Obligations.ReadSetsAndPortStatus : Prop :=
  (∀ (s : State) (p : Port) (tag : Byte) (x : Session) (codes : List Byte) (qs : List Quantity), s.readyFor p →
    s.session p = some x → codes.length ≤ 12 → codes = qs.map Quantity.byte → (qs.map Quantity.size).sum ≤ 120 →
    exec (.defineReadSet p tag codes) s = .next
      ((s.setSession p (some { s.touched p x with readSet := codes })).replied p tag
        (Reply.ok [byteOf codes.length, byteOf (qs.map Quantity.size).sum])))
  ∧ (∀ (s : State) (p : Port) (tag : Byte) (x : Session) (codes : List Byte), s.readyFor p → s.session p = some x →
    let refused := fun (status : Status) => exec (.defineReadSet p tag codes) s = .next (s.onlyReplied p tag x (Reply.refuse status))
    (12 < codes.length → refused .badLength)
    ∧ (codes.length ≤ 12 → ∀ code ∈ codes, (∀ q : Quantity, q.byte ≠ code) → refused .badValue)
    ∧ ∀ qs : List Quantity, codes.length ≤ 12 → codes = qs.map Quantity.byte → 120 < (qs.map Quantity.size).sum → refused .badValue)
  ∧ (∀ (s : State) (q : Quantity), s.codeBytes q.byte = s.quantity q ∧ (s.quantity q).length = q.size)
  ∧ ∀ (s : State) (p : Port) (tag : Byte), s.readyFor p →
    let c := s.counters p
    let base := s.onSession p (s.touched p)
    let report := Reply.ok ([byteOf c.badLead, byteOf c.cut, byteOf c.timeout, byteOf c.length, byteOf c.checkFail,
      byteOf (s.ownCounter p), if (s.session p).isSome then 1 else 0] ++ s.rateBytes p)
    exec (.portStatus p tag 0) s = .next (base.replied p tag report)
    ∧ exec (.portStatus p tag 1) s = .next ((base.clearCounters p).replied p tag report)
    ∧ (base.clearCounters p).counters p = { badLead := 0, cut := 0, timeout := 0, length := 0, checkFail := 0 }
    ∧ (base.clearCounters p).ownCounter p = 0
    ∧ ∀ clear : Byte, 1 < clear.toNat → exec (.portStatus p tag clear) s = .next (base.replied p tag (Reply.refuse .badValue))

end
end

