-- ==== Sys2Proof/Laws/State.lean ====
section
/-! SUPPORT. What each update of the state leaves and sets, field by field, so that no later proof unfolds an update. -/

namespace Sys2Proof.Machine

@[simp] theorem State.setSession_front (s : State) (p : Port) (x : Option Session) : (s.setSession p x).front = s.front := rfl
@[simp] theorem State.setSession_det (s : State) (p : Port) (x : Option Session) : (s.setSession p x).det = s.det := rfl
@[simp] theorem State.setSession_journal (s : State) (p : Port) (x : Option Session) : (s.setSession p x).journal = s.journal := rfl
@[simp] theorem State.setSession_sessions (s : State) (p : Port) (x : Option Session) : (s.setSession p x).sessions = s.sessions.set p x := rfl
@[simp] theorem State.setSession_token (s : State) (p : Port) (x : Option Session) : (s.setSession p x).token = s.token := rfl
@[simp] theorem State.setSession_store (s : State) (p : Port) (x : Option Session) : (s.setSession p x).store = s.store := rfl
@[simp] theorem State.setSession_energy (s : State) (p : Port) (x : Option Session) : (s.setSession p x).energy = s.energy := rfl
@[simp] theorem State.setSession_config (s : State) (p : Port) (x : Option Session) : (s.setSession p x).config = s.config := rfl
@[simp] theorem State.setSession_lease (s : State) (p : Port) (x : Option Session) : (s.setSession p x).lease = s.lease := rfl
@[simp] theorem State.setSession_queue (s : State) (p : Port) (x : Option Session) : (s.setSession p x).queue = s.queue := rfl
@[simp] theorem State.setSession_links (s : State) (p : Port) (x : Option Session) : (s.setSession p x).links = s.links := rfl
@[simp] theorem State.setSession_portC (s : State) (p : Port) (x : Option Session) : (s.setSession p x).portC = s.portC := rfl
@[simp] theorem State.setSession_attnLow (s : State) (p : Port) (x : Option Session) : (s.setSession p x).attnLow = s.attnLow := rfl
@[simp] theorem State.setSession_pins (s : State) (p : Port) (x : Option Session) : (s.setSession p x).pins = s.pins := rfl
@[simp] theorem State.setSession_draws (s : State) (p : Port) (x : Option Session) : (s.setSession p x).draws = s.draws := rfl
@[simp] theorem State.setSession_pending (s : State) (p : Port) (x : Option Session) : (s.setSession p x).pending = s.pending := rfl

@[simp] theorem State.onSession_front (s : State) (p : Port) (f : Session → Session) : (s.onSession p f).front = s.front := rfl
@[simp] theorem State.onSession_det (s : State) (p : Port) (f : Session → Session) : (s.onSession p f).det = s.det := rfl
@[simp] theorem State.onSession_journal (s : State) (p : Port) (f : Session → Session) : (s.onSession p f).journal = s.journal := rfl
@[simp] theorem State.onSession_sessions (s : State) (p : Port) (f : Session → Session) : (s.onSession p f).sessions = s.sessions.set p ((s.sessions.get p).map f) := rfl
@[simp] theorem State.onSession_token (s : State) (p : Port) (f : Session → Session) : (s.onSession p f).token = s.token := rfl
@[simp] theorem State.onSession_store (s : State) (p : Port) (f : Session → Session) : (s.onSession p f).store = s.store := rfl
@[simp] theorem State.onSession_energy (s : State) (p : Port) (f : Session → Session) : (s.onSession p f).energy = s.energy := rfl
@[simp] theorem State.onSession_config (s : State) (p : Port) (f : Session → Session) : (s.onSession p f).config = s.config := rfl
@[simp] theorem State.onSession_lease (s : State) (p : Port) (f : Session → Session) : (s.onSession p f).lease = s.lease := rfl
@[simp] theorem State.onSession_queue (s : State) (p : Port) (f : Session → Session) : (s.onSession p f).queue = s.queue := rfl
@[simp] theorem State.onSession_links (s : State) (p : Port) (f : Session → Session) : (s.onSession p f).links = s.links := rfl
@[simp] theorem State.onSession_portC (s : State) (p : Port) (f : Session → Session) : (s.onSession p f).portC = s.portC := rfl
@[simp] theorem State.onSession_attnLow (s : State) (p : Port) (f : Session → Session) : (s.onSession p f).attnLow = s.attnLow := rfl
@[simp] theorem State.onSession_pins (s : State) (p : Port) (f : Session → Session) : (s.onSession p f).pins = s.pins := rfl
@[simp] theorem State.onSession_draws (s : State) (p : Port) (f : Session → Session) : (s.onSession p f).draws = s.draws := rfl
@[simp] theorem State.onSession_pending (s : State) (p : Port) (f : Session → Session) : (s.onSession p f).pending = s.pending := rfl

@[simp] theorem State.onSessions_front (s : State) (f : Port → Session → Session) : (s.onSessions f).front = s.front := rfl
@[simp] theorem State.onSessions_det (s : State) (f : Port → Session → Session) : (s.onSessions f).det = s.det := rfl
@[simp] theorem State.onSessions_journal (s : State) (f : Port → Session → Session) : (s.onSessions f).journal = s.journal := rfl
@[simp] theorem State.onSessions_sessions (s : State) (f : Port → Session → Session) : (s.onSessions f).sessions = s.sessions.mapWith fun p x => x.map (f p) := rfl
@[simp] theorem State.onSessions_token (s : State) (f : Port → Session → Session) : (s.onSessions f).token = s.token := rfl
@[simp] theorem State.onSessions_store (s : State) (f : Port → Session → Session) : (s.onSessions f).store = s.store := rfl
@[simp] theorem State.onSessions_energy (s : State) (f : Port → Session → Session) : (s.onSessions f).energy = s.energy := rfl
@[simp] theorem State.onSessions_config (s : State) (f : Port → Session → Session) : (s.onSessions f).config = s.config := rfl
@[simp] theorem State.onSessions_lease (s : State) (f : Port → Session → Session) : (s.onSessions f).lease = s.lease := rfl
@[simp] theorem State.onSessions_queue (s : State) (f : Port → Session → Session) : (s.onSessions f).queue = s.queue := rfl
@[simp] theorem State.onSessions_links (s : State) (f : Port → Session → Session) : (s.onSessions f).links = s.links := rfl
@[simp] theorem State.onSessions_portC (s : State) (f : Port → Session → Session) : (s.onSessions f).portC = s.portC := rfl
@[simp] theorem State.onSessions_attnLow (s : State) (f : Port → Session → Session) : (s.onSessions f).attnLow = s.attnLow := rfl
@[simp] theorem State.onSessions_pins (s : State) (f : Port → Session → Session) : (s.onSessions f).pins = s.pins := rfl
@[simp] theorem State.onSessions_draws (s : State) (f : Port → Session → Session) : (s.onSessions f).draws = s.draws := rfl
@[simp] theorem State.onSessions_pending (s : State) (f : Port → Session → Session) : (s.onSessions f).pending = s.pending := rfl

@[simp] theorem State.hand_front (s : State) (o : Source) (t h : W32) (b : EntryBody) : (s.hand o t h b).front = s.front := rfl
@[simp] theorem State.hand_det (s : State) (o : Source) (t h : W32) (b : EntryBody) : (s.hand o t h b).det = s.det := rfl
@[simp] theorem State.hand_journal (s : State) (o : Source) (t h : W32) (b : EntryBody) : (s.hand o t h b).journal = { s.journal with waiting := s.journal.waiting ++ [{ source := o, tick := t, hc := h, body := b }] } := rfl
@[simp] theorem State.hand_sessions (s : State) (o : Source) (t h : W32) (b : EntryBody) : (s.hand o t h b).sessions = s.sessions := rfl
@[simp] theorem State.hand_token (s : State) (o : Source) (t h : W32) (b : EntryBody) : (s.hand o t h b).token = s.token := rfl
@[simp] theorem State.hand_store (s : State) (o : Source) (t h : W32) (b : EntryBody) : (s.hand o t h b).store = s.store := rfl
@[simp] theorem State.hand_energy (s : State) (o : Source) (t h : W32) (b : EntryBody) : (s.hand o t h b).energy = s.energy := rfl
@[simp] theorem State.hand_config (s : State) (o : Source) (t h : W32) (b : EntryBody) : (s.hand o t h b).config = s.config := rfl
@[simp] theorem State.hand_lease (s : State) (o : Source) (t h : W32) (b : EntryBody) : (s.hand o t h b).lease = s.lease := rfl
@[simp] theorem State.hand_queue (s : State) (o : Source) (t h : W32) (b : EntryBody) : (s.hand o t h b).queue = s.queue := rfl
@[simp] theorem State.hand_links (s : State) (o : Source) (t h : W32) (b : EntryBody) : (s.hand o t h b).links = s.links := rfl
@[simp] theorem State.hand_portC (s : State) (o : Source) (t h : W32) (b : EntryBody) : (s.hand o t h b).portC = s.portC := rfl
@[simp] theorem State.hand_attnLow (s : State) (o : Source) (t h : W32) (b : EntryBody) : (s.hand o t h b).attnLow = s.attnLow := rfl
@[simp] theorem State.hand_pins (s : State) (o : Source) (t h : W32) (b : EntryBody) : (s.hand o t h b).pins = s.pins := rfl
@[simp] theorem State.hand_draws (s : State) (o : Source) (t h : W32) (b : EntryBody) : (s.hand o t h b).draws = s.draws := rfl
@[simp] theorem State.hand_pending (s : State) (o : Source) (t h : W32) (b : EntryBody) : (s.hand o t h b).pending = s.pending := rfl

@[simp] theorem State.handNow_front (s : State) (o : Source) (b : EntryBody) : (s.handNow o b).front = s.front := rfl
@[simp] theorem State.handNow_det (s : State) (o : Source) (b : EntryBody) : (s.handNow o b).det = s.det := rfl
@[simp] theorem State.handNow_journal (s : State) (o : Source) (b : EntryBody) : (s.handNow o b).journal = { s.journal with waiting := s.journal.waiting ++ [{ source := o, tick := s.nowTick, hc := s.nowHc, body := b }] } := rfl
@[simp] theorem State.handNow_sessions (s : State) (o : Source) (b : EntryBody) : (s.handNow o b).sessions = s.sessions := rfl
@[simp] theorem State.handNow_token (s : State) (o : Source) (b : EntryBody) : (s.handNow o b).token = s.token := rfl
@[simp] theorem State.handNow_store (s : State) (o : Source) (b : EntryBody) : (s.handNow o b).store = s.store := rfl
@[simp] theorem State.handNow_energy (s : State) (o : Source) (b : EntryBody) : (s.handNow o b).energy = s.energy := rfl
@[simp] theorem State.handNow_config (s : State) (o : Source) (b : EntryBody) : (s.handNow o b).config = s.config := rfl
@[simp] theorem State.handNow_lease (s : State) (o : Source) (b : EntryBody) : (s.handNow o b).lease = s.lease := rfl
@[simp] theorem State.handNow_queue (s : State) (o : Source) (b : EntryBody) : (s.handNow o b).queue = s.queue := rfl
@[simp] theorem State.handNow_links (s : State) (o : Source) (b : EntryBody) : (s.handNow o b).links = s.links := rfl
@[simp] theorem State.handNow_portC (s : State) (o : Source) (b : EntryBody) : (s.handNow o b).portC = s.portC := rfl
@[simp] theorem State.handNow_attnLow (s : State) (o : Source) (b : EntryBody) : (s.handNow o b).attnLow = s.attnLow := rfl
@[simp] theorem State.handNow_pins (s : State) (o : Source) (b : EntryBody) : (s.handNow o b).pins = s.pins := rfl
@[simp] theorem State.handNow_draws (s : State) (o : Source) (b : EntryBody) : (s.handNow o b).draws = s.draws := rfl
@[simp] theorem State.handNow_pending (s : State) (o : Source) (b : EntryBody) : (s.handNow o b).pending = s.pending := rfl

@[simp] theorem State.countLost_front (s : State) (t : W32) (b : EntryBody) : (s.countLost t b).front = s.front := rfl
@[simp] theorem State.countLost_det (s : State) (t : W32) (b : EntryBody) : (s.countLost t b).det = s.det := rfl
@[simp] theorem State.countLost_journal (s : State) (t : W32) (b : EntryBody) : (s.countLost t b).journal = { s.journal with tally := s.journal.tally.count b.cls t } := rfl
@[simp] theorem State.countLost_sessions (s : State) (t : W32) (b : EntryBody) : (s.countLost t b).sessions = s.sessions := rfl
@[simp] theorem State.countLost_token (s : State) (t : W32) (b : EntryBody) : (s.countLost t b).token = s.token := rfl
@[simp] theorem State.countLost_store (s : State) (t : W32) (b : EntryBody) : (s.countLost t b).store = s.store := rfl
@[simp] theorem State.countLost_energy (s : State) (t : W32) (b : EntryBody) : (s.countLost t b).energy = s.energy := rfl
@[simp] theorem State.countLost_config (s : State) (t : W32) (b : EntryBody) : (s.countLost t b).config = s.config := rfl
@[simp] theorem State.countLost_lease (s : State) (t : W32) (b : EntryBody) : (s.countLost t b).lease = s.lease := rfl
@[simp] theorem State.countLost_queue (s : State) (t : W32) (b : EntryBody) : (s.countLost t b).queue = s.queue := rfl
@[simp] theorem State.countLost_links (s : State) (t : W32) (b : EntryBody) : (s.countLost t b).links = s.links := rfl
@[simp] theorem State.countLost_portC (s : State) (t : W32) (b : EntryBody) : (s.countLost t b).portC = s.portC := rfl
@[simp] theorem State.countLost_attnLow (s : State) (t : W32) (b : EntryBody) : (s.countLost t b).attnLow = s.attnLow := rfl
@[simp] theorem State.countLost_pins (s : State) (t : W32) (b : EntryBody) : (s.countLost t b).pins = s.pins := rfl
@[simp] theorem State.countLost_draws (s : State) (t : W32) (b : EntryBody) : (s.countLost t b).draws = s.draws := rfl
@[simp] theorem State.countLost_pending (s : State) (t : W32) (b : EntryBody) : (s.countLost t b).pending = s.pending := rfl

@[simp] theorem State.latch_front (s : State) (p : Port) (f : Latches → Latches) : (s.latch p f).front = s.front := rfl
@[simp] theorem State.latch_det (s : State) (p : Port) (f : Latches → Latches) : (s.latch p f).det = s.det := rfl
@[simp] theorem State.latch_journal (s : State) (p : Port) (f : Latches → Latches) : (s.latch p f).journal = s.journal := rfl
@[simp] theorem State.latch_sessions (s : State) (p : Port) (f : Latches → Latches) : (s.latch p f).sessions = s.sessions.set p ((s.sessions.get p).map fun x => { x with latches := f x.latches }) := rfl
@[simp] theorem State.latch_token (s : State) (p : Port) (f : Latches → Latches) : (s.latch p f).token = s.token := rfl
@[simp] theorem State.latch_store (s : State) (p : Port) (f : Latches → Latches) : (s.latch p f).store = s.store := rfl
@[simp] theorem State.latch_energy (s : State) (p : Port) (f : Latches → Latches) : (s.latch p f).energy = s.energy := rfl
@[simp] theorem State.latch_config (s : State) (p : Port) (f : Latches → Latches) : (s.latch p f).config = s.config := rfl
@[simp] theorem State.latch_lease (s : State) (p : Port) (f : Latches → Latches) : (s.latch p f).lease = s.lease := rfl
@[simp] theorem State.latch_queue (s : State) (p : Port) (f : Latches → Latches) : (s.latch p f).queue = s.queue := rfl
@[simp] theorem State.latch_links (s : State) (p : Port) (f : Latches → Latches) : (s.latch p f).links = s.links := rfl
@[simp] theorem State.latch_portC (s : State) (p : Port) (f : Latches → Latches) : (s.latch p f).portC = s.portC := rfl
@[simp] theorem State.latch_attnLow (s : State) (p : Port) (f : Latches → Latches) : (s.latch p f).attnLow = s.attnLow := rfl
@[simp] theorem State.latch_pins (s : State) (p : Port) (f : Latches → Latches) : (s.latch p f).pins = s.pins := rfl
@[simp] theorem State.latch_draws (s : State) (p : Port) (f : Latches → Latches) : (s.latch p f).draws = s.draws := rfl
@[simp] theorem State.latch_pending (s : State) (p : Port) (f : Latches → Latches) : (s.latch p f).pending = s.pending := rfl

@[simp] theorem State.latchHosts_front (s : State) (h : HostSet) (f : Latches → Latches) : (s.latchHosts h f).front = s.front := rfl
@[simp] theorem State.latchHosts_det (s : State) (h : HostSet) (f : Latches → Latches) : (s.latchHosts h f).det = s.det := rfl
@[simp] theorem State.latchHosts_journal (s : State) (h : HostSet) (f : Latches → Latches) : (s.latchHosts h f).journal = s.journal := rfl
@[simp] theorem State.latchHosts_sessions (s : State) (h : HostSet) (f : Latches → Latches) : (s.latchHosts h f).sessions = s.sessions.mapWith fun p x => x.map fun x => if h.get p then { x with latches := f x.latches } else x := rfl
@[simp] theorem State.latchHosts_token (s : State) (h : HostSet) (f : Latches → Latches) : (s.latchHosts h f).token = s.token := rfl
@[simp] theorem State.latchHosts_store (s : State) (h : HostSet) (f : Latches → Latches) : (s.latchHosts h f).store = s.store := rfl
@[simp] theorem State.latchHosts_energy (s : State) (h : HostSet) (f : Latches → Latches) : (s.latchHosts h f).energy = s.energy := rfl
@[simp] theorem State.latchHosts_config (s : State) (h : HostSet) (f : Latches → Latches) : (s.latchHosts h f).config = s.config := rfl
@[simp] theorem State.latchHosts_lease (s : State) (h : HostSet) (f : Latches → Latches) : (s.latchHosts h f).lease = s.lease := rfl
@[simp] theorem State.latchHosts_queue (s : State) (h : HostSet) (f : Latches → Latches) : (s.latchHosts h f).queue = s.queue := rfl
@[simp] theorem State.latchHosts_links (s : State) (h : HostSet) (f : Latches → Latches) : (s.latchHosts h f).links = s.links := rfl
@[simp] theorem State.latchHosts_portC (s : State) (h : HostSet) (f : Latches → Latches) : (s.latchHosts h f).portC = s.portC := rfl
@[simp] theorem State.latchHosts_attnLow (s : State) (h : HostSet) (f : Latches → Latches) : (s.latchHosts h f).attnLow = s.attnLow := rfl
@[simp] theorem State.latchHosts_pins (s : State) (h : HostSet) (f : Latches → Latches) : (s.latchHosts h f).pins = s.pins := rfl
@[simp] theorem State.latchHosts_draws (s : State) (h : HostSet) (f : Latches → Latches) : (s.latchHosts h f).draws = s.draws := rfl
@[simp] theorem State.latchHosts_pending (s : State) (h : HostSet) (f : Latches → Latches) : (s.latchHosts h f).pending = s.pending := rfl

@[simp] theorem State.drive_front (s : State) : s.drive.front = s.front := rfl
@[simp] theorem State.drive_det (s : State) : s.drive.det = s.det := rfl
@[simp] theorem State.drive_journal (s : State) : s.drive.journal = s.journal := rfl
@[simp] theorem State.drive_sessions (s : State) : s.drive.sessions = s.sessions := rfl
@[simp] theorem State.drive_token (s : State) : s.drive.token = s.token := rfl
@[simp] theorem State.drive_store (s : State) : s.drive.store = s.store := rfl
@[simp] theorem State.drive_energy (s : State) : s.drive.energy = s.energy := rfl
@[simp] theorem State.drive_config (s : State) : s.drive.config = s.config := rfl
@[simp] theorem State.drive_lease (s : State) : s.drive.lease = s.lease := rfl
@[simp] theorem State.drive_queue (s : State) : s.drive.queue = s.queue := rfl
@[simp] theorem State.drive_links (s : State) : s.drive.links = s.links := rfl
@[simp] theorem State.drive_portC (s : State) : s.drive.portC = s.portC := rfl
@[simp] theorem State.drive_attnLow (s : State) : s.drive.attnLow = ⟨s.lineLow .a, s.lineLow .b, s.lineLow .c⟩ := rfl
@[simp] theorem State.drive_pins (s : State) : s.drive.pins = s.pins := rfl
@[simp] theorem State.drive_draws (s : State) : s.drive.draws = s.draws := rfl
@[simp] theorem State.drive_pending (s : State) : s.drive.pending = s.pending := rfl

@[simp] theorem State.setDet_front (s : State) (d : DetId) (x : Detector) : (s.setDet d x).front = s.front := rfl
@[simp] theorem State.setDet_det (s : State) (d : DetId) (x : Detector) : (s.setDet d x).det = { s.det with dets := s.det.dets.set d x } := rfl
@[simp] theorem State.setDet_journal (s : State) (d : DetId) (x : Detector) : (s.setDet d x).journal = s.journal := rfl
@[simp] theorem State.setDet_sessions (s : State) (d : DetId) (x : Detector) : (s.setDet d x).sessions = s.sessions := rfl
@[simp] theorem State.setDet_token (s : State) (d : DetId) (x : Detector) : (s.setDet d x).token = s.token := rfl
@[simp] theorem State.setDet_store (s : State) (d : DetId) (x : Detector) : (s.setDet d x).store = s.store := rfl
@[simp] theorem State.setDet_energy (s : State) (d : DetId) (x : Detector) : (s.setDet d x).energy = s.energy := rfl
@[simp] theorem State.setDet_config (s : State) (d : DetId) (x : Detector) : (s.setDet d x).config = s.config := rfl
@[simp] theorem State.setDet_lease (s : State) (d : DetId) (x : Detector) : (s.setDet d x).lease = s.lease := rfl
@[simp] theorem State.setDet_queue (s : State) (d : DetId) (x : Detector) : (s.setDet d x).queue = s.queue := rfl
@[simp] theorem State.setDet_links (s : State) (d : DetId) (x : Detector) : (s.setDet d x).links = s.links := rfl
@[simp] theorem State.setDet_portC (s : State) (d : DetId) (x : Detector) : (s.setDet d x).portC = s.portC := rfl
@[simp] theorem State.setDet_attnLow (s : State) (d : DetId) (x : Detector) : (s.setDet d x).attnLow = s.attnLow := rfl
@[simp] theorem State.setDet_pins (s : State) (d : DetId) (x : Detector) : (s.setDet d x).pins = s.pins := rfl
@[simp] theorem State.setDet_draws (s : State) (d : DetId) (x : Detector) : (s.setDet d x).draws = s.draws := rfl
@[simp] theorem State.setDet_pending (s : State) (d : DetId) (x : Detector) : (s.setDet d x).pending = s.pending := rfl

@[simp] theorem State.raiseTrigger_front (s : State) (o : TrigSource) (t h : W32) : (s.raiseTrigger o t h).front = s.front := rfl
@[simp] theorem State.raiseTrigger_det (s : State) (o : TrigSource) (t h : W32) : (s.raiseTrigger o t h).det = s.det := rfl
@[simp] theorem State.raiseTrigger_journal (s : State) (o : TrigSource) (t h : W32) : (s.raiseTrigger o t h).journal = s.journal := rfl
@[simp] theorem State.raiseTrigger_sessions (s : State) (o : TrigSource) (t h : W32) : (s.raiseTrigger o t h).sessions = s.sessions := rfl
@[simp] theorem State.raiseTrigger_token (s : State) (o : TrigSource) (t h : W32) : (s.raiseTrigger o t h).token = s.token := rfl
@[simp] theorem State.raiseTrigger_store (s : State) (o : TrigSource) (t h : W32) : (s.raiseTrigger o t h).store = { s.store with inbox := s.store.inbox ++ [.trigger o t h] } := rfl
@[simp] theorem State.raiseTrigger_energy (s : State) (o : TrigSource) (t h : W32) : (s.raiseTrigger o t h).energy = s.energy := rfl
@[simp] theorem State.raiseTrigger_config (s : State) (o : TrigSource) (t h : W32) : (s.raiseTrigger o t h).config = s.config := rfl
@[simp] theorem State.raiseTrigger_lease (s : State) (o : TrigSource) (t h : W32) : (s.raiseTrigger o t h).lease = s.lease := rfl
@[simp] theorem State.raiseTrigger_queue (s : State) (o : TrigSource) (t h : W32) : (s.raiseTrigger o t h).queue = s.queue := rfl
@[simp] theorem State.raiseTrigger_links (s : State) (o : TrigSource) (t h : W32) : (s.raiseTrigger o t h).links = s.links := rfl
@[simp] theorem State.raiseTrigger_portC (s : State) (o : TrigSource) (t h : W32) : (s.raiseTrigger o t h).portC = s.portC := rfl
@[simp] theorem State.raiseTrigger_attnLow (s : State) (o : TrigSource) (t h : W32) : (s.raiseTrigger o t h).attnLow = s.attnLow := rfl
@[simp] theorem State.raiseTrigger_pins (s : State) (o : TrigSource) (t h : W32) : (s.raiseTrigger o t h).pins = s.pins := rfl
@[simp] theorem State.raiseTrigger_draws (s : State) (o : TrigSource) (t h : W32) : (s.raiseTrigger o t h).draws = s.draws := rfl
@[simp] theorem State.raiseTrigger_pending (s : State) (o : TrigSource) (t h : W32) : (s.raiseTrigger o t h).pending = s.pending := rfl

@[simp] theorem State.setMode_front (s : State) (m : StoreMode) : (s.setMode m).front = s.front := rfl
@[simp] theorem State.setMode_det (s : State) (m : StoreMode) : (s.setMode m).det = s.det := rfl
@[simp] theorem State.setMode_journal (s : State) (m : StoreMode) : (s.setMode m).journal = s.journal := rfl
@[simp] theorem State.setMode_sessions (s : State) (m : StoreMode) : (s.setMode m).sessions = s.sessions := rfl
@[simp] theorem State.setMode_token (s : State) (m : StoreMode) : (s.setMode m).token = s.token := rfl
@[simp] theorem State.setMode_store (s : State) (m : StoreMode) : (s.setMode m).store = { s.store with mode := m } := rfl
@[simp] theorem State.setMode_energy (s : State) (m : StoreMode) : (s.setMode m).energy = s.energy := rfl
@[simp] theorem State.setMode_config (s : State) (m : StoreMode) : (s.setMode m).config = s.config := rfl
@[simp] theorem State.setMode_lease (s : State) (m : StoreMode) : (s.setMode m).lease = s.lease := rfl
@[simp] theorem State.setMode_queue (s : State) (m : StoreMode) : (s.setMode m).queue = s.queue := rfl
@[simp] theorem State.setMode_links (s : State) (m : StoreMode) : (s.setMode m).links = s.links := rfl
@[simp] theorem State.setMode_portC (s : State) (m : StoreMode) : (s.setMode m).portC = s.portC := rfl
@[simp] theorem State.setMode_attnLow (s : State) (m : StoreMode) : (s.setMode m).attnLow = s.attnLow := rfl
@[simp] theorem State.setMode_pins (s : State) (m : StoreMode) : (s.setMode m).pins = s.pins := rfl
@[simp] theorem State.setMode_draws (s : State) (m : StoreMode) : (s.setMode m).draws = s.draws := rfl
@[simp] theorem State.setMode_pending (s : State) (m : StoreMode) : (s.setMode m).pending = s.pending := rfl

@[simp] theorem State.setCapInbox_front (s : State) (l : List CapEvent) : (s.setCapInbox l).front = s.front := rfl
@[simp] theorem State.setCapInbox_det (s : State) (l : List CapEvent) : (s.setCapInbox l).det = s.det := rfl
@[simp] theorem State.setCapInbox_journal (s : State) (l : List CapEvent) : (s.setCapInbox l).journal = s.journal := rfl
@[simp] theorem State.setCapInbox_sessions (s : State) (l : List CapEvent) : (s.setCapInbox l).sessions = s.sessions := rfl
@[simp] theorem State.setCapInbox_token (s : State) (l : List CapEvent) : (s.setCapInbox l).token = s.token := rfl
@[simp] theorem State.setCapInbox_store (s : State) (l : List CapEvent) : (s.setCapInbox l).store = { s.store with inbox := l } := rfl
@[simp] theorem State.setCapInbox_energy (s : State) (l : List CapEvent) : (s.setCapInbox l).energy = s.energy := rfl
@[simp] theorem State.setCapInbox_config (s : State) (l : List CapEvent) : (s.setCapInbox l).config = s.config := rfl
@[simp] theorem State.setCapInbox_lease (s : State) (l : List CapEvent) : (s.setCapInbox l).lease = s.lease := rfl
@[simp] theorem State.setCapInbox_queue (s : State) (l : List CapEvent) : (s.setCapInbox l).queue = s.queue := rfl
@[simp] theorem State.setCapInbox_links (s : State) (l : List CapEvent) : (s.setCapInbox l).links = s.links := rfl
@[simp] theorem State.setCapInbox_portC (s : State) (l : List CapEvent) : (s.setCapInbox l).portC = s.portC := rfl
@[simp] theorem State.setCapInbox_attnLow (s : State) (l : List CapEvent) : (s.setCapInbox l).attnLow = s.attnLow := rfl
@[simp] theorem State.setCapInbox_pins (s : State) (l : List CapEvent) : (s.setCapInbox l).pins = s.pins := rfl
@[simp] theorem State.setCapInbox_draws (s : State) (l : List CapEvent) : (s.setCapInbox l).draws = s.draws := rfl
@[simp] theorem State.setCapInbox_pending (s : State) (l : List CapEvent) : (s.setCapInbox l).pending = s.pending := rfl

@[simp] theorem State.setAcc_front (s : State) (a : AccId) (r : Accumulator) : (s.setAcc a r).front = s.front := rfl
@[simp] theorem State.setAcc_det (s : State) (a : AccId) (r : Accumulator) : (s.setAcc a r).det = s.det := rfl
@[simp] theorem State.setAcc_journal (s : State) (a : AccId) (r : Accumulator) : (s.setAcc a r).journal = s.journal := rfl
@[simp] theorem State.setAcc_sessions (s : State) (a : AccId) (r : Accumulator) : (s.setAcc a r).sessions = s.sessions := rfl
@[simp] theorem State.setAcc_token (s : State) (a : AccId) (r : Accumulator) : (s.setAcc a r).token = s.token := rfl
@[simp] theorem State.setAcc_store (s : State) (a : AccId) (r : Accumulator) : (s.setAcc a r).store = s.store := rfl
@[simp] theorem State.setAcc_energy (s : State) (a : AccId) (r : Accumulator) : (s.setAcc a r).energy = { s.energy with acc := s.energy.acc.set a r } := rfl
@[simp] theorem State.setAcc_config (s : State) (a : AccId) (r : Accumulator) : (s.setAcc a r).config = s.config := rfl
@[simp] theorem State.setAcc_lease (s : State) (a : AccId) (r : Accumulator) : (s.setAcc a r).lease = s.lease := rfl
@[simp] theorem State.setAcc_queue (s : State) (a : AccId) (r : Accumulator) : (s.setAcc a r).queue = s.queue := rfl
@[simp] theorem State.setAcc_links (s : State) (a : AccId) (r : Accumulator) : (s.setAcc a r).links = s.links := rfl
@[simp] theorem State.setAcc_portC (s : State) (a : AccId) (r : Accumulator) : (s.setAcc a r).portC = s.portC := rfl
@[simp] theorem State.setAcc_attnLow (s : State) (a : AccId) (r : Accumulator) : (s.setAcc a r).attnLow = s.attnLow := rfl
@[simp] theorem State.setAcc_pins (s : State) (a : AccId) (r : Accumulator) : (s.setAcc a r).pins = s.pins := rfl
@[simp] theorem State.setAcc_draws (s : State) (a : AccId) (r : Accumulator) : (s.setAcc a r).draws = s.draws := rfl
@[simp] theorem State.setAcc_pending (s : State) (a : AccId) (r : Accumulator) : (s.setAcc a r).pending = s.pending := rfl

@[simp] theorem State.setEngine_front (s : State) (e : PulseId) (r : PulseEngine) : (s.setEngine e r).front = s.front := rfl
@[simp] theorem State.setEngine_det (s : State) (e : PulseId) (r : PulseEngine) : (s.setEngine e r).det = s.det := rfl
@[simp] theorem State.setEngine_journal (s : State) (e : PulseId) (r : PulseEngine) : (s.setEngine e r).journal = s.journal := rfl
@[simp] theorem State.setEngine_sessions (s : State) (e : PulseId) (r : PulseEngine) : (s.setEngine e r).sessions = s.sessions := rfl
@[simp] theorem State.setEngine_token (s : State) (e : PulseId) (r : PulseEngine) : (s.setEngine e r).token = s.token := rfl
@[simp] theorem State.setEngine_store (s : State) (e : PulseId) (r : PulseEngine) : (s.setEngine e r).store = s.store := rfl
@[simp] theorem State.setEngine_energy (s : State) (e : PulseId) (r : PulseEngine) : (s.setEngine e r).energy = { s.energy with engines := s.energy.engines.set e r } := rfl
@[simp] theorem State.setEngine_config (s : State) (e : PulseId) (r : PulseEngine) : (s.setEngine e r).config = s.config := rfl
@[simp] theorem State.setEngine_lease (s : State) (e : PulseId) (r : PulseEngine) : (s.setEngine e r).lease = s.lease := rfl
@[simp] theorem State.setEngine_queue (s : State) (e : PulseId) (r : PulseEngine) : (s.setEngine e r).queue = s.queue := rfl
@[simp] theorem State.setEngine_links (s : State) (e : PulseId) (r : PulseEngine) : (s.setEngine e r).links = s.links := rfl
@[simp] theorem State.setEngine_portC (s : State) (e : PulseId) (r : PulseEngine) : (s.setEngine e r).portC = s.portC := rfl
@[simp] theorem State.setEngine_attnLow (s : State) (e : PulseId) (r : PulseEngine) : (s.setEngine e r).attnLow = s.attnLow := rfl
@[simp] theorem State.setEngine_pins (s : State) (e : PulseId) (r : PulseEngine) : (s.setEngine e r).pins = s.pins := rfl
@[simp] theorem State.setEngine_draws (s : State) (e : PulseId) (r : PulseEngine) : (s.setEngine e r).draws = s.draws := rfl
@[simp] theorem State.setEngine_pending (s : State) (e : PulseId) (r : PulseEngine) : (s.setEngine e r).pending = s.pending := rfl

@[simp] theorem State.freeToken_front (s : State) : s.freeToken.front = s.front := rfl
@[simp] theorem State.freeToken_det (s : State) : s.freeToken.det = s.det := rfl
@[simp] theorem State.freeToken_journal (s : State) : s.freeToken.journal = s.journal := rfl
@[simp] theorem State.freeToken_sessions (s : State) : s.freeToken.sessions = s.sessions := rfl
@[simp] theorem State.freeToken_token (s : State) : s.freeToken.token = none := rfl
@[simp] theorem State.freeToken_store (s : State) : s.freeToken.store = { s.store with inbox := s.store.inbox ++ [.tokenFree] } := rfl
@[simp] theorem State.freeToken_energy (s : State) : s.freeToken.energy = s.energy := rfl
@[simp] theorem State.freeToken_config (s : State) : s.freeToken.config = s.config := rfl
@[simp] theorem State.freeToken_lease (s : State) : s.freeToken.lease = s.lease := rfl
@[simp] theorem State.freeToken_queue (s : State) : s.freeToken.queue = s.queue := rfl
@[simp] theorem State.freeToken_links (s : State) : s.freeToken.links = s.links := rfl
@[simp] theorem State.freeToken_portC (s : State) : s.freeToken.portC = s.portC := rfl
@[simp] theorem State.freeToken_attnLow (s : State) : s.freeToken.attnLow = s.attnLow := rfl
@[simp] theorem State.freeToken_pins (s : State) : s.freeToken.pins = s.pins := rfl
@[simp] theorem State.freeToken_draws (s : State) : s.freeToken.draws = s.draws := rfl
@[simp] theorem State.freeToken_pending (s : State) : s.freeToken.pending = s.pending := rfl

@[simp] theorem State.setStage_front (s : State) (t : Tenure) (g : Table) : (s.setStage t g).front = s.front := rfl
@[simp] theorem State.setStage_det (s : State) (t : Tenure) (g : Table) : (s.setStage t g).det = s.det := rfl
@[simp] theorem State.setStage_journal (s : State) (t : Tenure) (g : Table) : (s.setStage t g).journal = s.journal := rfl
@[simp] theorem State.setStage_sessions (s : State) (t : Tenure) (g : Table) : (s.setStage t g).sessions = s.sessions := rfl
@[simp] theorem State.setStage_token (s : State) (t : Tenure) (g : Table) : (s.setStage t g).token = s.token := rfl
@[simp] theorem State.setStage_store (s : State) (t : Tenure) (g : Table) : (s.setStage t g).store = s.store := rfl
@[simp] theorem State.setStage_energy (s : State) (t : Tenure) (g : Table) : (s.setStage t g).energy = s.energy := rfl
@[simp] theorem State.setStage_config (s : State) (t : Tenure) (g : Table) : (s.setStage t g).config = s.config := rfl
@[simp] theorem State.setStage_lease (s : State) (t : Tenure) (g : Table) : (s.setStage t g).lease = some { t with stage := g } := rfl
@[simp] theorem State.setStage_queue (s : State) (t : Tenure) (g : Table) : (s.setStage t g).queue = s.queue := rfl
@[simp] theorem State.setStage_links (s : State) (t : Tenure) (g : Table) : (s.setStage t g).links = s.links := rfl
@[simp] theorem State.setStage_portC (s : State) (t : Tenure) (g : Table) : (s.setStage t g).portC = s.portC := rfl
@[simp] theorem State.setStage_attnLow (s : State) (t : Tenure) (g : Table) : (s.setStage t g).attnLow = s.attnLow := rfl
@[simp] theorem State.setStage_pins (s : State) (t : Tenure) (g : Table) : (s.setStage t g).pins = s.pins := rfl
@[simp] theorem State.setStage_draws (s : State) (t : Tenure) (g : Table) : (s.setStage t g).draws = s.draws := rfl
@[simp] theorem State.setStage_pending (s : State) (t : Tenure) (g : Table) : (s.setStage t g).pending = s.pending := rfl

@[simp] theorem State.onLink_front (s : State) (p : SyncId) (f : SyncLink → SyncLink) : (s.onLink p f).front = s.front := rfl
@[simp] theorem State.onLink_det (s : State) (p : SyncId) (f : SyncLink → SyncLink) : (s.onLink p f).det = s.det := rfl
@[simp] theorem State.onLink_journal (s : State) (p : SyncId) (f : SyncLink → SyncLink) : (s.onLink p f).journal = s.journal := rfl
@[simp] theorem State.onLink_sessions (s : State) (p : SyncId) (f : SyncLink → SyncLink) : (s.onLink p f).sessions = s.sessions := rfl
@[simp] theorem State.onLink_token (s : State) (p : SyncId) (f : SyncLink → SyncLink) : (s.onLink p f).token = s.token := rfl
@[simp] theorem State.onLink_store (s : State) (p : SyncId) (f : SyncLink → SyncLink) : (s.onLink p f).store = s.store := rfl
@[simp] theorem State.onLink_energy (s : State) (p : SyncId) (f : SyncLink → SyncLink) : (s.onLink p f).energy = s.energy := rfl
@[simp] theorem State.onLink_config (s : State) (p : SyncId) (f : SyncLink → SyncLink) : (s.onLink p f).config = s.config := rfl
@[simp] theorem State.onLink_lease (s : State) (p : SyncId) (f : SyncLink → SyncLink) : (s.onLink p f).lease = s.lease := rfl
@[simp] theorem State.onLink_queue (s : State) (p : SyncId) (f : SyncLink → SyncLink) : (s.onLink p f).queue = s.queue := rfl
@[simp] theorem State.onLink_links (s : State) (p : SyncId) (f : SyncLink → SyncLink) : (s.onLink p f).links = s.links.set p (f (s.links.get p)) := rfl
@[simp] theorem State.onLink_portC (s : State) (p : SyncId) (f : SyncLink → SyncLink) : (s.onLink p f).portC = s.portC := rfl
@[simp] theorem State.onLink_attnLow (s : State) (p : SyncId) (f : SyncLink → SyncLink) : (s.onLink p f).attnLow = s.attnLow := rfl
@[simp] theorem State.onLink_pins (s : State) (p : SyncId) (f : SyncLink → SyncLink) : (s.onLink p f).pins = s.pins := rfl
@[simp] theorem State.onLink_draws (s : State) (p : SyncId) (f : SyncLink → SyncLink) : (s.onLink p f).draws = s.draws := rfl
@[simp] theorem State.onLink_pending (s : State) (p : SyncId) (f : SyncLink → SyncLink) : (s.onLink p f).pending = s.pending := rfl

@[simp] theorem State.onPortC_front (s : State) (f : AsyncLink → AsyncLink) : (s.onPortC f).front = s.front := rfl
@[simp] theorem State.onPortC_det (s : State) (f : AsyncLink → AsyncLink) : (s.onPortC f).det = s.det := rfl
@[simp] theorem State.onPortC_journal (s : State) (f : AsyncLink → AsyncLink) : (s.onPortC f).journal = s.journal := rfl
@[simp] theorem State.onPortC_sessions (s : State) (f : AsyncLink → AsyncLink) : (s.onPortC f).sessions = s.sessions := rfl
@[simp] theorem State.onPortC_token (s : State) (f : AsyncLink → AsyncLink) : (s.onPortC f).token = s.token := rfl
@[simp] theorem State.onPortC_store (s : State) (f : AsyncLink → AsyncLink) : (s.onPortC f).store = s.store := rfl
@[simp] theorem State.onPortC_energy (s : State) (f : AsyncLink → AsyncLink) : (s.onPortC f).energy = s.energy := rfl
@[simp] theorem State.onPortC_config (s : State) (f : AsyncLink → AsyncLink) : (s.onPortC f).config = s.config := rfl
@[simp] theorem State.onPortC_lease (s : State) (f : AsyncLink → AsyncLink) : (s.onPortC f).lease = s.lease := rfl
@[simp] theorem State.onPortC_queue (s : State) (f : AsyncLink → AsyncLink) : (s.onPortC f).queue = s.queue := rfl
@[simp] theorem State.onPortC_links (s : State) (f : AsyncLink → AsyncLink) : (s.onPortC f).links = s.links := rfl
@[simp] theorem State.onPortC_portC (s : State) (f : AsyncLink → AsyncLink) : (s.onPortC f).portC = f s.portC := rfl
@[simp] theorem State.onPortC_attnLow (s : State) (f : AsyncLink → AsyncLink) : (s.onPortC f).attnLow = s.attnLow := rfl
@[simp] theorem State.onPortC_pins (s : State) (f : AsyncLink → AsyncLink) : (s.onPortC f).pins = s.pins := rfl
@[simp] theorem State.onPortC_draws (s : State) (f : AsyncLink → AsyncLink) : (s.onPortC f).draws = s.draws := rfl
@[simp] theorem State.onPortC_pending (s : State) (f : AsyncLink → AsyncLink) : (s.onPortC f).pending = s.pending := rfl

@[simp] theorem State.setSelect_front (s : State) (p : SyncId) (low : Bool) : (s.setSelect p low).front = s.front := rfl
@[simp] theorem State.setSelect_det (s : State) (p : SyncId) (low : Bool) : (s.setSelect p low).det = s.det := rfl
@[simp] theorem State.setSelect_journal (s : State) (p : SyncId) (low : Bool) : (s.setSelect p low).journal = s.journal := rfl
@[simp] theorem State.setSelect_sessions (s : State) (p : SyncId) (low : Bool) : (s.setSelect p low).sessions = s.sessions := rfl
@[simp] theorem State.setSelect_token (s : State) (p : SyncId) (low : Bool) : (s.setSelect p low).token = s.token := rfl
@[simp] theorem State.setSelect_store (s : State) (p : SyncId) (low : Bool) : (s.setSelect p low).store = s.store := rfl
@[simp] theorem State.setSelect_energy (s : State) (p : SyncId) (low : Bool) : (s.setSelect p low).energy = s.energy := rfl
@[simp] theorem State.setSelect_config (s : State) (p : SyncId) (low : Bool) : (s.setSelect p low).config = s.config := rfl
@[simp] theorem State.setSelect_lease (s : State) (p : SyncId) (low : Bool) : (s.setSelect p low).lease = s.lease := rfl
@[simp] theorem State.setSelect_queue (s : State) (p : SyncId) (low : Bool) : (s.setSelect p low).queue = s.queue := rfl
@[simp] theorem State.setSelect_links (s : State) (p : SyncId) (low : Bool) : (s.setSelect p low).links = s.links := rfl
@[simp] theorem State.setSelect_portC (s : State) (p : SyncId) (low : Bool) : (s.setSelect p low).portC = s.portC := rfl
@[simp] theorem State.setSelect_attnLow (s : State) (p : SyncId) (low : Bool) : (s.setSelect p low).attnLow = s.attnLow := rfl
@[simp] theorem State.setSelect_pins (s : State) (p : SyncId) (low : Bool) : (s.setSelect p low).pins = { s.pins with selLow := s.pins.selLow.set p low } := rfl
@[simp] theorem State.setSelect_draws (s : State) (p : SyncId) (low : Bool) : (s.setSelect p low).draws = s.draws := rfl
@[simp] theorem State.setSelect_pending (s : State) (p : SyncId) (low : Bool) : (s.setSelect p low).pending = s.pending := rfl

@[simp] theorem State.setPending_front (s : State) (l : List Instr) : (s.setPending l).front = s.front := rfl
@[simp] theorem State.setPending_det (s : State) (l : List Instr) : (s.setPending l).det = s.det := rfl
@[simp] theorem State.setPending_journal (s : State) (l : List Instr) : (s.setPending l).journal = s.journal := rfl
@[simp] theorem State.setPending_sessions (s : State) (l : List Instr) : (s.setPending l).sessions = s.sessions := rfl
@[simp] theorem State.setPending_token (s : State) (l : List Instr) : (s.setPending l).token = s.token := rfl
@[simp] theorem State.setPending_store (s : State) (l : List Instr) : (s.setPending l).store = s.store := rfl
@[simp] theorem State.setPending_energy (s : State) (l : List Instr) : (s.setPending l).energy = s.energy := rfl
@[simp] theorem State.setPending_config (s : State) (l : List Instr) : (s.setPending l).config = s.config := rfl
@[simp] theorem State.setPending_lease (s : State) (l : List Instr) : (s.setPending l).lease = s.lease := rfl
@[simp] theorem State.setPending_queue (s : State) (l : List Instr) : (s.setPending l).queue = s.queue := rfl
@[simp] theorem State.setPending_links (s : State) (l : List Instr) : (s.setPending l).links = s.links := rfl
@[simp] theorem State.setPending_portC (s : State) (l : List Instr) : (s.setPending l).portC = s.portC := rfl
@[simp] theorem State.setPending_attnLow (s : State) (l : List Instr) : (s.setPending l).attnLow = s.attnLow := rfl
@[simp] theorem State.setPending_pins (s : State) (l : List Instr) : (s.setPending l).pins = s.pins := rfl
@[simp] theorem State.setPending_draws (s : State) (l : List Instr) : (s.setPending l).draws = s.draws := rfl
@[simp] theorem State.setPending_pending (s : State) (l : List Instr) : (s.setPending l).pending = l := rfl

@[simp] theorem State.answer_front (s : State) (p : Port) (r : Response) : (s.answer p r).front = s.front := by cases p <;> rfl
@[simp] theorem State.answer_det (s : State) (p : Port) (r : Response) : (s.answer p r).det = s.det := by cases p <;> rfl
@[simp] theorem State.answer_journal (s : State) (p : Port) (r : Response) : (s.answer p r).journal = s.journal := by cases p <;> rfl
@[simp] theorem State.answer_sessions (s : State) (p : Port) (r : Response) : (s.answer p r).sessions = s.sessions := by cases p <;> rfl
@[simp] theorem State.answer_token (s : State) (p : Port) (r : Response) : (s.answer p r).token = s.token := by cases p <;> rfl
@[simp] theorem State.answer_store (s : State) (p : Port) (r : Response) : (s.answer p r).store = s.store := by cases p <;> rfl
@[simp] theorem State.answer_energy (s : State) (p : Port) (r : Response) : (s.answer p r).energy = s.energy := by cases p <;> rfl
@[simp] theorem State.answer_config (s : State) (p : Port) (r : Response) : (s.answer p r).config = s.config := by cases p <;> rfl
@[simp] theorem State.answer_lease (s : State) (p : Port) (r : Response) : (s.answer p r).lease = s.lease := by cases p <;> rfl
@[simp] theorem State.answer_queue (s : State) (p : Port) (r : Response) : (s.answer p r).queue = s.queue := by cases p <;> rfl
@[simp] theorem State.answer_attnLow (s : State) (p : Port) (r : Response) : (s.answer p r).attnLow = s.attnLow := by cases p <;> rfl
@[simp] theorem State.answer_pins (s : State) (p : Port) (r : Response) : (s.answer p r).pins = s.pins := by cases p <;> rfl
@[simp] theorem State.answer_draws (s : State) (p : Port) (r : Response) : (s.answer p r).draws = s.draws := by cases p <;> rfl
@[simp] theorem State.answer_pending (s : State) (p : Port) (r : Response) : (s.answer p r).pending = s.pending := by cases p <;> rfl

@[simp] theorem State.onCounters_front (s : State) (p : Port) (f : LinkCounters → LinkCounters) : (s.onCounters p f).front = s.front := by cases p <;> rfl
@[simp] theorem State.onCounters_det (s : State) (p : Port) (f : LinkCounters → LinkCounters) : (s.onCounters p f).det = s.det := by cases p <;> rfl
@[simp] theorem State.onCounters_journal (s : State) (p : Port) (f : LinkCounters → LinkCounters) : (s.onCounters p f).journal = s.journal := by cases p <;> rfl
@[simp] theorem State.onCounters_sessions (s : State) (p : Port) (f : LinkCounters → LinkCounters) : (s.onCounters p f).sessions = s.sessions := by cases p <;> rfl
@[simp] theorem State.onCounters_token (s : State) (p : Port) (f : LinkCounters → LinkCounters) : (s.onCounters p f).token = s.token := by cases p <;> rfl
@[simp] theorem State.onCounters_store (s : State) (p : Port) (f : LinkCounters → LinkCounters) : (s.onCounters p f).store = s.store := by cases p <;> rfl
@[simp] theorem State.onCounters_energy (s : State) (p : Port) (f : LinkCounters → LinkCounters) : (s.onCounters p f).energy = s.energy := by cases p <;> rfl
@[simp] theorem State.onCounters_config (s : State) (p : Port) (f : LinkCounters → LinkCounters) : (s.onCounters p f).config = s.config := by cases p <;> rfl
@[simp] theorem State.onCounters_lease (s : State) (p : Port) (f : LinkCounters → LinkCounters) : (s.onCounters p f).lease = s.lease := by cases p <;> rfl
@[simp] theorem State.onCounters_queue (s : State) (p : Port) (f : LinkCounters → LinkCounters) : (s.onCounters p f).queue = s.queue := by cases p <;> rfl
@[simp] theorem State.onCounters_attnLow (s : State) (p : Port) (f : LinkCounters → LinkCounters) : (s.onCounters p f).attnLow = s.attnLow := by cases p <;> rfl
@[simp] theorem State.onCounters_pins (s : State) (p : Port) (f : LinkCounters → LinkCounters) : (s.onCounters p f).pins = s.pins := by cases p <;> rfl
@[simp] theorem State.onCounters_draws (s : State) (p : Port) (f : LinkCounters → LinkCounters) : (s.onCounters p f).draws = s.draws := by cases p <;> rfl
@[simp] theorem State.onCounters_pending (s : State) (p : Port) (f : LinkCounters → LinkCounters) : (s.onCounters p f).pending = s.pending := by cases p <;> rfl

@[simp] theorem State.clearCounters_front (s : State) (p : Port) : (s.clearCounters p).front = s.front := by cases p <;> rfl
@[simp] theorem State.clearCounters_det (s : State) (p : Port) : (s.clearCounters p).det = s.det := by cases p <;> rfl
@[simp] theorem State.clearCounters_journal (s : State) (p : Port) : (s.clearCounters p).journal = s.journal := by cases p <;> rfl
@[simp] theorem State.clearCounters_sessions (s : State) (p : Port) : (s.clearCounters p).sessions = s.sessions := by cases p <;> rfl
@[simp] theorem State.clearCounters_token (s : State) (p : Port) : (s.clearCounters p).token = s.token := by cases p <;> rfl
@[simp] theorem State.clearCounters_store (s : State) (p : Port) : (s.clearCounters p).store = s.store := by cases p <;> rfl
@[simp] theorem State.clearCounters_energy (s : State) (p : Port) : (s.clearCounters p).energy = s.energy := by cases p <;> rfl
@[simp] theorem State.clearCounters_config (s : State) (p : Port) : (s.clearCounters p).config = s.config := by cases p <;> rfl
@[simp] theorem State.clearCounters_lease (s : State) (p : Port) : (s.clearCounters p).lease = s.lease := by cases p <;> rfl
@[simp] theorem State.clearCounters_queue (s : State) (p : Port) : (s.clearCounters p).queue = s.queue := by cases p <;> rfl
@[simp] theorem State.clearCounters_attnLow (s : State) (p : Port) : (s.clearCounters p).attnLow = s.attnLow := by cases p <;> rfl
@[simp] theorem State.clearCounters_pins (s : State) (p : Port) : (s.clearCounters p).pins = s.pins := by cases p <;> rfl
@[simp] theorem State.clearCounters_draws (s : State) (p : Port) : (s.clearCounters p).draws = s.draws := by cases p <;> rfl
@[simp] theorem State.clearCounters_pending (s : State) (p : Port) : (s.clearCounters p).pending = s.pending := by cases p <;> rfl

end Sys2Proof.Machine
end

