-- ==== Sys2Proof/Laws/Vec.lean ====
section
/-! SUPPORT. Reading after writing, for the things that there is one of per name, and for the items of the configuration table. -/

namespace Sys2Proof.Machine

@[simp] theorem PerPort.get_set_self {α : Type} (v : PerPort α) (i : Port) (x : α) : (v.set i x).get i = x := by cases i <;> rfl
theorem PerPort.get_set_ne {α : Type} (v : PerPort α) {i j : Port} (x : α) (h : j ≠ i) : (v.set i x).get j = v.get j := by
  cases i <;> cases j <;> first | rfl | exact absurd rfl h
theorem PerPort.get_set {α : Type} (v : PerPort α) (i j : Port) (x : α) : (v.set i x).get j = if j = i then x else v.get j := by
  cases i <;> cases j <;> rfl
theorem PerPort.ext_get {α : Type} {v w : PerPort α} (h : ∀ i, v.get i = w.get i) : v = w := by
  cases v; cases w; congr 1
  · exact h .a
  · exact h .b
  · exact h .c
@[simp] theorem PerPort.get_mapWith {α β : Type} (f : Port → α → β) (v : PerPort α) (i : Port) :
    (v.mapWith f).get i = f i (v.get i) := by cases i <;> rfl
@[simp] theorem PerPort.get_all {α : Type} (x : α) (i : Port) : (PerPort.all x).get i = x := by cases i <;> rfl
theorem PerPort.set_get_self {α : Type} (v : PerPort α) (i : Port) : v.set i (v.get i) = v := by cases i <;> rfl
theorem PerPort.set_set {α : Type} (v : PerPort α) (i : Port) (x y : α) : (v.set i x).set i y = v.set i y := by cases i <;> rfl

@[simp] theorem PerSync.get_set_self {α : Type} (v : PerSync α) (i : SyncId) (x : α) : (v.set i x).get i = x := by cases i <;> rfl
theorem PerSync.get_set_ne {α : Type} (v : PerSync α) {i j : SyncId} (x : α) (h : j ≠ i) : (v.set i x).get j = v.get j := by
  cases i <;> cases j <;> first | rfl | exact absurd rfl h
theorem PerSync.get_set {α : Type} (v : PerSync α) (i j : SyncId) (x : α) : (v.set i x).get j = if j = i then x else v.get j := by
  cases i <;> cases j <;> rfl
theorem PerSync.ext_get {α : Type} {v w : PerSync α} (h : ∀ i, v.get i = w.get i) : v = w := by
  cases v; cases w; congr 1
  · exact h .a
  · exact h .b
@[simp] theorem PerSync.get_all {α : Type} (x : α) (i : SyncId) : (PerSync.all x).get i = x := by cases i <;> rfl
theorem PerSync.set_get_self {α : Type} (v : PerSync α) (i : SyncId) : v.set i (v.get i) = v := by cases i <;> rfl
theorem PerSync.set_set {α : Type} (v : PerSync α) (i : SyncId) (x y : α) : (v.set i x).set i y = v.set i y := by cases i <;> rfl

@[simp] theorem PerDet.get_set_self {α : Type} (v : PerDet α) (i : DetId) (x : α) : (v.set i x).get i = x := by cases i <;> rfl
theorem PerDet.get_set_ne {α : Type} (v : PerDet α) {i j : DetId} (x : α) (h : j ≠ i) : (v.set i x).get j = v.get j := by
  cases i <;> cases j <;> first | rfl | exact absurd rfl h
theorem PerDet.get_set {α : Type} (v : PerDet α) (i j : DetId) (x : α) : (v.set i x).get j = if j = i then x else v.get j := by
  cases i <;> cases j <;> rfl
theorem PerDet.ext_get {α : Type} {v w : PerDet α} (h : ∀ i, v.get i = w.get i) : v = w := by
  cases v; cases w; congr 1
  · exact h .uDip
  · exact h .uSwell
  · exact h .uIntr
  · exact h .iaOver
  · exact h .ibOver
  · exact h .iResid
@[simp] theorem PerDet.get_mapWith {α β : Type} (f : DetId → α → β) (v : PerDet α) (i : DetId) :
    (v.mapWith f).get i = f i (v.get i) := by cases i <;> rfl
theorem PerDet.set_get_self {α : Type} (v : PerDet α) (i : DetId) : v.set i (v.get i) = v := by cases i <;> rfl
theorem PerDet.set_set {α : Type} (v : PerDet α) (i : DetId) (x y : α) : (v.set i x).set i y = v.set i y := by cases i <;> rfl

@[simp] theorem PerAcc.get_set_self {α : Type} (v : PerAcc α) (i : AccId) (x : α) : (v.set i x).get i = x := by cases i <;> rfl
theorem PerAcc.get_set_ne {α : Type} (v : PerAcc α) {i j : AccId} (x : α) (h : j ≠ i) : (v.set i x).get j = v.get j := by
  cases i <;> cases j <;> first | rfl | exact absurd rfl h
theorem PerAcc.get_set {α : Type} (v : PerAcc α) (i j : AccId) (x : α) : (v.set i x).get j = if j = i then x else v.get j := by
  cases i <;> cases j <;> rfl
theorem PerAcc.ext_get {α : Type} {v w : PerAcc α} (h : ∀ i, v.get i = w.get i) : v = w := by
  cases v; cases w; congr 1
  · exact h .e0
  · exact h .e1
  · exact h .e2
  · exact h .e3
@[simp] theorem PerAcc.get_mapWith {α β : Type} (f : AccId → α → β) (v : PerAcc α) (i : AccId) :
    (v.mapWith f).get i = f i (v.get i) := by cases i <;> rfl
@[simp] theorem PerAcc.get_all {α : Type} (x : α) (i : AccId) : (PerAcc.all x).get i = x := by cases i <;> rfl
theorem PerAcc.set_get_self {α : Type} (v : PerAcc α) (i : AccId) : v.set i (v.get i) = v := by cases i <;> rfl
theorem PerAcc.set_set {α : Type} (v : PerAcc α) (i : AccId) (x y : α) : (v.set i x).set i y = v.set i y := by cases i <;> rfl

@[simp] theorem PerPulse.get_set_self {α : Type} (v : PerPulse α) (i : PulseId) (x : α) : (v.set i x).get i = x := by cases i <;> rfl
theorem PerPulse.get_set_ne {α : Type} (v : PerPulse α) {i j : PulseId} (x : α) (h : j ≠ i) : (v.set i x).get j = v.get j := by
  cases i <;> cases j <;> first | rfl | exact absurd rfl h
theorem PerPulse.get_set {α : Type} (v : PerPulse α) (i j : PulseId) (x : α) : (v.set i x).get j = if j = i then x else v.get j := by
  cases i <;> cases j <;> rfl
theorem PerPulse.ext_get {α : Type} {v w : PerPulse α} (h : ∀ i, v.get i = w.get i) : v = w := by
  cases v; cases w; congr 1
  · exact h .p0
  · exact h .p1
@[simp] theorem PerPulse.get_mapWith {α β : Type} (f : PulseId → α → β) (v : PerPulse α) (i : PulseId) :
    (v.mapWith f).get i = f i (v.get i) := by cases i <;> rfl
theorem PerPulse.set_get_self {α : Type} (v : PerPulse α) (i : PulseId) : v.set i (v.get i) = v := by cases i <;> rfl
theorem PerPulse.set_set {α : Type} (v : PerPulse α) (i : PulseId) (x y : α) : (v.set i x).set i y = v.set i y := by cases i <;> rfl

@[simp] theorem PerClass.get_set_self {α : Type} (v : PerClass α) (i : EntryClass) (x : α) : (v.set i x).get i = x := by cases i <;> rfl
theorem PerClass.get_set_ne {α : Type} (v : PerClass α) {i j : EntryClass} (x : α) (h : j ≠ i) : (v.set i x).get j = v.get j := by
  cases i <;> cases j <;> first | rfl | exact absurd rfl h
theorem PerClass.get_set {α : Type} (v : PerClass α) (i j : EntryClass) (x : α) : (v.set i x).get j = if j = i then x else v.get j := by
  cases i <;> cases j <;> rfl
theorem PerClass.ext_get {α : Type} {v w : PerClass α} (h : ∀ i, v.get i = w.get i) : v = w := by
  cases v; cases w; congr 1
  · exact h .disturbance
  · exact h .capture
  · exact h .energy
  · exact h .config
  · exact h .session
  · exact h .line
  · exact h .note
  · exact h .system
@[simp] theorem PerClass.get_all {α : Type} (x : α) (i : EntryClass) : (PerClass.all x).get i = x := by cases i <;> rfl
theorem PerClass.set_get_self {α : Type} (v : PerClass α) (i : EntryClass) : v.set i (v.get i) = v := by cases i <;> rfl
theorem PerClass.set_set {α : Type} (v : PerClass α) (i : EntryClass) (x y : α) : (v.set i x).set i y = v.set i y := by cases i <;> rfl

/-- An item written is read back. -/
@[simp] theorem Table.get_set_self (t : Table) (i : Item) (v : W16) : (t.set i v).get i = v := by
  cases i with
  | front f => cases f <;> rfl
  | det d f => cases d <;> cases f <;> rfl
  | cap f => cases f <;> rfl
  | acc a f => cases a <;> cases f <;> rfl
  | pulse e f => cases e <;> cases f <;> rfl
  | host p f => cases p <;> cases f <;> rfl
  | rateMode => rfl

/-- Another item keeps its value. -/
theorem Table.get_set_ne (t : Table) {i j : Item} (v : W16) (h : j ≠ i) : (t.set i v).get j = t.get j := by
  cases i with
  | front f => cases j with
    | front g => cases f <;> cases g <;> first | rfl | exact absurd rfl h
    | _ => rfl
  | det d f => cases j with
    | det e g =>
      cases d <;> cases e <;> first | rfl | (cases f <;> cases g <;> first | rfl | exact absurd rfl h)
    | _ => rfl
  | cap f => cases j with
    | cap g => cases f <;> cases g <;> first | rfl | exact absurd rfl h
    | _ => rfl
  | acc x f => cases j with
    | acc y g => cases x <;> cases y <;> first | rfl | (cases f <;> cases g <;> first | rfl | exact absurd rfl h)
    | _ => rfl
  | pulse x f => cases j with
    | pulse y g => cases x <;> cases y <;> first | rfl | (cases f <;> cases g <;> first | rfl | exact absurd rfl h)
    | _ => rfl
  | host x f => cases j with
    | host y g => cases x <;> cases y <;> first | rfl | (cases f <;> cases g <;> first | rfl | exact absurd rfl h)
    | _ => rfl
  | rateMode => cases j with
    | rateMode => exact absurd rfl h
    | _ => rfl

end Sys2Proof.Machine
end

