-- ==== Sys2Proof/Laws/Journal.lean ====
section
/-! SUPPORT. The journal's operations: all that a store attempt and an append can do (R10 to R19), and what they leave alone. -/

namespace Sys2Proof.Machine

/-! ### The store attempt (R15 to R19) -/

/-- The state after the oldest entry was removed and another stored: the sessions are moved past it first (R18, R19). -/
def State.evicted (s : State) (e : Entry) (rest : List Entry) (tick hc : W32) (body : EntryBody) : State :=
  { s.onSessions fun _ x => x.passRemoved s.journal.nextSeq e with
    journal := { s.journal with entries := rest }.push tick hc body }

/-- A store attempt finds room, or is refused by a HOLD pinner, or removes the oldest entry. -/
theorem State.tryStore_cases (s : State) (tick hc : W32) (body : EntryBody) :
    (s.journal.entries.length < journalCapacity
      ∧ s.tryStore tick hc body = ({ s with journal := s.journal.push tick hc body }, some s.journal.nextSeq))
    ∨ (∃ e rest, s.journal.entries = e :: rest ∧ journalCapacity ≤ s.journal.entries.length ∧ s.heldBack e = true
      ∧ s.tryStore tick hc body = (s, none))
    ∨ (∃ e rest, s.journal.entries = e :: rest ∧ journalCapacity ≤ s.journal.entries.length ∧ s.heldBack e = false
      ∧ s.tryStore tick hc body = (s.evicted e rest tick hc body, some s.journal.nextSeq)) := by
  by_cases h : s.journal.entries.length < journalCapacity
  · exact .inl ⟨h, by simp only [State.tryStore, h, if_true]⟩
  · have h' : journalCapacity ≤ s.journal.entries.length := Nat.le_of_not_lt h
    cases hj : s.journal.entries with
    | nil => rw [hj] at h'; exact absurd h' (by decide)
    | cons e rest =>
      rw [hj] at h h'
      cases hb : s.heldBack e with
      | true => exact .inr (.inl ⟨e, rest, rfl, h', hb, by simp only [State.tryStore, hj, h, hb, if_true, if_false]⟩)
      | false =>
        refine .inr (.inr ⟨e, rest, rfl, h', hb, ?_⟩)
        simp only [State.tryStore, hj, h, hb, if_false, Bool.false_eq_true]
        rfl

/-! ### The append (R12 to R14) -/

/-- The tally emptied, after its GAP is stored (R14). -/
def State.emptyTally (s : State) : State := { s with journal := { s.journal with tally := .empty } }

/-- The store attempt of the entry itself: stored, or counted as lost. -/
theorem State.storeOrCount_cases (s : State) (tick hc : W32) (body : EntryBody) :
    (∃ s' seq, s.tryStore tick hc body = (s', some seq) ∧ s.storeOrCount tick hc body = (s', some seq))
    ∨ (∃ s', s.tryStore tick hc body = (s', none) ∧ s.storeOrCount tick hc body = (s'.countLost tick body, none)) := by
  cases h : s.tryStore tick hc body with
  | mk s' r => cases r with
    | some seq => exact .inl ⟨s', seq, rfl, by simp only [State.storeOrCount, h]⟩
    | none => exact .inr ⟨s', rfl, by simp only [State.storeOrCount, h]⟩

/-- An append: the entry alone while the tally is empty; else after a GAP that is stored, or counted when the GAP is not. -/
theorem State.takeAppend_cases (s : State) (tick hc : W32) (body : EntryBody) :
    (s.journal.tally.isEmpty = true ∧ s.takeAppend tick hc body = s.storeOrCount tick hc body)
    ∨ (s.journal.tally.isEmpty = false ∧
        ((∃ s' seq, s.tryStore tick hc (.gap s.journal.tally.counts s.journal.tally.first s.journal.tally.last) = (s', some seq)
            ∧ s.takeAppend tick hc body = s'.emptyTally.storeOrCount tick hc body)
          ∨ (∃ s', s.tryStore tick hc (.gap s.journal.tally.counts s.journal.tally.first s.journal.tally.last) = (s', none)
            ∧ s.takeAppend tick hc body = (s'.countLost tick body, none)))) := by
  cases ht : s.journal.tally.isEmpty with
  | true => exact .inl ⟨rfl, by simp only [State.takeAppend, ht, if_true]⟩
  | false =>
    refine .inr ⟨rfl, ?_⟩
    cases h : s.tryStore tick hc (.gap s.journal.tally.counts s.journal.tally.first s.journal.tally.last) with
    | mk s' r => cases r with
      | some seq => exact .inl ⟨s', seq, rfl, by simp only [State.takeAppend, ht, h, if_false, Bool.false_eq_true]; rfl⟩
      | none => exact .inr ⟨s', rfl, by simp only [State.takeAppend, ht, h, if_false, Bool.false_eq_true]⟩

/-! ### Induction over what waits -/

/-- What holds before and is kept by every append, and does not read the waiting list, holds after the journal has taken all
that waits. -/
theorem State.settle_induction (P : State → Prop) (s : State) (h0 : P { s with journal := { s.journal with waiting := [] } })
    (h : ∀ s tick hc body, P s → P (s.takeAppend tick hc body).1) : P s.settle := by
  unfold State.settle
  generalize s.journal.waiting = l
  revert h0
  generalize ({ s with journal := { s.journal with waiting := [] } } : State) = t
  intro h0
  induction l generalizing t with
  | nil => exact h0
  | cons a l ih => exact ih _ (h _ _ _ _ h0)

/-! ### What an append leaves alone: all but the journal and the sessions -/

@[simp] theorem State.tryStore_front (s : State) (t h : W32) (b : EntryBody) : (s.tryStore t h b).1.front = s.front := by
  rcases s.tryStore_cases t h b with ⟨-, e⟩ | ⟨_, _, -, -, -, e⟩ | ⟨_, _, -, -, -, e⟩
  · rw [e]
  · rw [e]
  · rw [e]; rfl
@[simp] theorem State.storeOrCount_front (s : State) (t h : W32) (b : EntryBody) : (s.storeOrCount t h b).1.front = s.front := by
  have k := s.tryStore_front t h b
  rcases s.storeOrCount_cases t h b with ⟨_, _, e, e'⟩ | ⟨_, e, e'⟩ <;> (rw [e']; rw [e] at k; exact k)
@[simp] theorem State.takeAppend_front (s : State) (t h : W32) (b : EntryBody) : (s.takeAppend t h b).1.front = s.front := by
  rcases s.takeAppend_cases t h b with ⟨-, e⟩ | ⟨-, ⟨s', _, e, e'⟩ | ⟨s', e, e'⟩⟩
  · rw [e]; exact s.storeOrCount_front t h b
  · have k := congrArg (fun o => o.1.front) e
    rw [e', State.storeOrCount_front]; exact k.symm.trans (s.tryStore_front ..)
  · have k := congrArg (fun o => o.1.front) e
    rw [e']; exact k.symm.trans (s.tryStore_front ..)
@[simp] theorem State.settle_front (s : State) : s.settle.front = s.front :=
  s.settle_induction (fun t => t.front = s.front) rfl fun _ _ _ _ e => by simp [e]
@[simp] theorem State.appendNow_front (s : State) (b : EntryBody) : (s.appendNow b).1.front = s.front := by
  simp [State.appendNow]

@[simp] theorem State.tryStore_det (s : State) (t h : W32) (b : EntryBody) : (s.tryStore t h b).1.det = s.det := by
  rcases s.tryStore_cases t h b with ⟨-, e⟩ | ⟨_, _, -, -, -, e⟩ | ⟨_, _, -, -, -, e⟩
  · rw [e]
  · rw [e]
  · rw [e]; rfl
@[simp] theorem State.storeOrCount_det (s : State) (t h : W32) (b : EntryBody) : (s.storeOrCount t h b).1.det = s.det := by
  have k := s.tryStore_det t h b
  rcases s.storeOrCount_cases t h b with ⟨_, _, e, e'⟩ | ⟨_, e, e'⟩ <;> (rw [e']; rw [e] at k; exact k)
@[simp] theorem State.takeAppend_det (s : State) (t h : W32) (b : EntryBody) : (s.takeAppend t h b).1.det = s.det := by
  rcases s.takeAppend_cases t h b with ⟨-, e⟩ | ⟨-, ⟨s', _, e, e'⟩ | ⟨s', e, e'⟩⟩
  · rw [e]; exact s.storeOrCount_det t h b
  · have k := congrArg (fun o => o.1.det) e
    rw [e', State.storeOrCount_det]; exact k.symm.trans (s.tryStore_det ..)
  · have k := congrArg (fun o => o.1.det) e
    rw [e']; exact k.symm.trans (s.tryStore_det ..)
@[simp] theorem State.settle_det (s : State) : s.settle.det = s.det :=
  s.settle_induction (fun t => t.det = s.det) rfl fun _ _ _ _ e => by simp [e]
@[simp] theorem State.appendNow_det (s : State) (b : EntryBody) : (s.appendNow b).1.det = s.det := by
  simp [State.appendNow]

@[simp] theorem State.tryStore_token (s : State) (t h : W32) (b : EntryBody) : (s.tryStore t h b).1.token = s.token := by
  rcases s.tryStore_cases t h b with ⟨-, e⟩ | ⟨_, _, -, -, -, e⟩ | ⟨_, _, -, -, -, e⟩
  · rw [e]
  · rw [e]
  · rw [e]; rfl
@[simp] theorem State.storeOrCount_token (s : State) (t h : W32) (b : EntryBody) : (s.storeOrCount t h b).1.token = s.token := by
  have k := s.tryStore_token t h b
  rcases s.storeOrCount_cases t h b with ⟨_, _, e, e'⟩ | ⟨_, e, e'⟩ <;> (rw [e']; rw [e] at k; exact k)
@[simp] theorem State.takeAppend_token (s : State) (t h : W32) (b : EntryBody) : (s.takeAppend t h b).1.token = s.token := by
  rcases s.takeAppend_cases t h b with ⟨-, e⟩ | ⟨-, ⟨s', _, e, e'⟩ | ⟨s', e, e'⟩⟩
  · rw [e]; exact s.storeOrCount_token t h b
  · have k := congrArg (fun o => o.1.token) e
    rw [e', State.storeOrCount_token]; exact k.symm.trans (s.tryStore_token ..)
  · have k := congrArg (fun o => o.1.token) e
    rw [e']; exact k.symm.trans (s.tryStore_token ..)
@[simp] theorem State.settle_token (s : State) : s.settle.token = s.token :=
  s.settle_induction (fun t => t.token = s.token) rfl fun _ _ _ _ e => by simp [e]
@[simp] theorem State.appendNow_token (s : State) (b : EntryBody) : (s.appendNow b).1.token = s.token := by
  simp [State.appendNow]

@[simp] theorem State.tryStore_store (s : State) (t h : W32) (b : EntryBody) : (s.tryStore t h b).1.store = s.store := by
  rcases s.tryStore_cases t h b with ⟨-, e⟩ | ⟨_, _, -, -, -, e⟩ | ⟨_, _, -, -, -, e⟩
  · rw [e]
  · rw [e]
  · rw [e]; rfl
@[simp] theorem State.storeOrCount_store (s : State) (t h : W32) (b : EntryBody) : (s.storeOrCount t h b).1.store = s.store := by
  have k := s.tryStore_store t h b
  rcases s.storeOrCount_cases t h b with ⟨_, _, e, e'⟩ | ⟨_, e, e'⟩ <;> (rw [e']; rw [e] at k; exact k)
@[simp] theorem State.takeAppend_store (s : State) (t h : W32) (b : EntryBody) : (s.takeAppend t h b).1.store = s.store := by
  rcases s.takeAppend_cases t h b with ⟨-, e⟩ | ⟨-, ⟨s', _, e, e'⟩ | ⟨s', e, e'⟩⟩
  · rw [e]; exact s.storeOrCount_store t h b
  · have k := congrArg (fun o => o.1.store) e
    rw [e', State.storeOrCount_store]; exact k.symm.trans (s.tryStore_store ..)
  · have k := congrArg (fun o => o.1.store) e
    rw [e']; exact k.symm.trans (s.tryStore_store ..)
@[simp] theorem State.settle_store (s : State) : s.settle.store = s.store :=
  s.settle_induction (fun t => t.store = s.store) rfl fun _ _ _ _ e => by simp [e]
@[simp] theorem State.appendNow_store (s : State) (b : EntryBody) : (s.appendNow b).1.store = s.store := by
  simp [State.appendNow]

@[simp] theorem State.tryStore_energy (s : State) (t h : W32) (b : EntryBody) : (s.tryStore t h b).1.energy = s.energy := by
  rcases s.tryStore_cases t h b with ⟨-, e⟩ | ⟨_, _, -, -, -, e⟩ | ⟨_, _, -, -, -, e⟩
  · rw [e]
  · rw [e]
  · rw [e]; rfl
@[simp] theorem State.storeOrCount_energy (s : State) (t h : W32) (b : EntryBody) : (s.storeOrCount t h b).1.energy = s.energy := by
  have k := s.tryStore_energy t h b
  rcases s.storeOrCount_cases t h b with ⟨_, _, e, e'⟩ | ⟨_, e, e'⟩ <;> (rw [e']; rw [e] at k; exact k)
@[simp] theorem State.takeAppend_energy (s : State) (t h : W32) (b : EntryBody) : (s.takeAppend t h b).1.energy = s.energy := by
  rcases s.takeAppend_cases t h b with ⟨-, e⟩ | ⟨-, ⟨s', _, e, e'⟩ | ⟨s', e, e'⟩⟩
  · rw [e]; exact s.storeOrCount_energy t h b
  · have k := congrArg (fun o => o.1.energy) e
    rw [e', State.storeOrCount_energy]; exact k.symm.trans (s.tryStore_energy ..)
  · have k := congrArg (fun o => o.1.energy) e
    rw [e']; exact k.symm.trans (s.tryStore_energy ..)
@[simp] theorem State.settle_energy (s : State) : s.settle.energy = s.energy :=
  s.settle_induction (fun t => t.energy = s.energy) rfl fun _ _ _ _ e => by simp [e]
@[simp] theorem State.appendNow_energy (s : State) (b : EntryBody) : (s.appendNow b).1.energy = s.energy := by
  simp [State.appendNow]

@[simp] theorem State.tryStore_config (s : State) (t h : W32) (b : EntryBody) : (s.tryStore t h b).1.config = s.config := by
  rcases s.tryStore_cases t h b with ⟨-, e⟩ | ⟨_, _, -, -, -, e⟩ | ⟨_, _, -, -, -, e⟩
  · rw [e]
  · rw [e]
  · rw [e]; rfl
@[simp] theorem State.storeOrCount_config (s : State) (t h : W32) (b : EntryBody) : (s.storeOrCount t h b).1.config = s.config := by
  have k := s.tryStore_config t h b
  rcases s.storeOrCount_cases t h b with ⟨_, _, e, e'⟩ | ⟨_, e, e'⟩ <;> (rw [e']; rw [e] at k; exact k)
@[simp] theorem State.takeAppend_config (s : State) (t h : W32) (b : EntryBody) : (s.takeAppend t h b).1.config = s.config := by
  rcases s.takeAppend_cases t h b with ⟨-, e⟩ | ⟨-, ⟨s', _, e, e'⟩ | ⟨s', e, e'⟩⟩
  · rw [e]; exact s.storeOrCount_config t h b
  · have k := congrArg (fun o => o.1.config) e
    rw [e', State.storeOrCount_config]; exact k.symm.trans (s.tryStore_config ..)
  · have k := congrArg (fun o => o.1.config) e
    rw [e']; exact k.symm.trans (s.tryStore_config ..)
@[simp] theorem State.settle_config (s : State) : s.settle.config = s.config :=
  s.settle_induction (fun t => t.config = s.config) rfl fun _ _ _ _ e => by simp [e]
@[simp] theorem State.appendNow_config (s : State) (b : EntryBody) : (s.appendNow b).1.config = s.config := by
  simp [State.appendNow]

@[simp] theorem State.tryStore_lease (s : State) (t h : W32) (b : EntryBody) : (s.tryStore t h b).1.lease = s.lease := by
  rcases s.tryStore_cases t h b with ⟨-, e⟩ | ⟨_, _, -, -, -, e⟩ | ⟨_, _, -, -, -, e⟩
  · rw [e]
  · rw [e]
  · rw [e]; rfl
@[simp] theorem State.storeOrCount_lease (s : State) (t h : W32) (b : EntryBody) : (s.storeOrCount t h b).1.lease = s.lease := by
  have k := s.tryStore_lease t h b
  rcases s.storeOrCount_cases t h b with ⟨_, _, e, e'⟩ | ⟨_, e, e'⟩ <;> (rw [e']; rw [e] at k; exact k)
@[simp] theorem State.takeAppend_lease (s : State) (t h : W32) (b : EntryBody) : (s.takeAppend t h b).1.lease = s.lease := by
  rcases s.takeAppend_cases t h b with ⟨-, e⟩ | ⟨-, ⟨s', _, e, e'⟩ | ⟨s', e, e'⟩⟩
  · rw [e]; exact s.storeOrCount_lease t h b
  · have k := congrArg (fun o => o.1.lease) e
    rw [e', State.storeOrCount_lease]; exact k.symm.trans (s.tryStore_lease ..)
  · have k := congrArg (fun o => o.1.lease) e
    rw [e']; exact k.symm.trans (s.tryStore_lease ..)
@[simp] theorem State.settle_lease (s : State) : s.settle.lease = s.lease :=
  s.settle_induction (fun t => t.lease = s.lease) rfl fun _ _ _ _ e => by simp [e]
@[simp] theorem State.appendNow_lease (s : State) (b : EntryBody) : (s.appendNow b).1.lease = s.lease := by
  simp [State.appendNow]

@[simp] theorem State.tryStore_queue (s : State) (t h : W32) (b : EntryBody) : (s.tryStore t h b).1.queue = s.queue := by
  rcases s.tryStore_cases t h b with ⟨-, e⟩ | ⟨_, _, -, -, -, e⟩ | ⟨_, _, -, -, -, e⟩
  · rw [e]
  · rw [e]
  · rw [e]; rfl
@[simp] theorem State.storeOrCount_queue (s : State) (t h : W32) (b : EntryBody) : (s.storeOrCount t h b).1.queue = s.queue := by
  have k := s.tryStore_queue t h b
  rcases s.storeOrCount_cases t h b with ⟨_, _, e, e'⟩ | ⟨_, e, e'⟩ <;> (rw [e']; rw [e] at k; exact k)
@[simp] theorem State.takeAppend_queue (s : State) (t h : W32) (b : EntryBody) : (s.takeAppend t h b).1.queue = s.queue := by
  rcases s.takeAppend_cases t h b with ⟨-, e⟩ | ⟨-, ⟨s', _, e, e'⟩ | ⟨s', e, e'⟩⟩
  · rw [e]; exact s.storeOrCount_queue t h b
  · have k := congrArg (fun o => o.1.queue) e
    rw [e', State.storeOrCount_queue]; exact k.symm.trans (s.tryStore_queue ..)
  · have k := congrArg (fun o => o.1.queue) e
    rw [e']; exact k.symm.trans (s.tryStore_queue ..)
@[simp] theorem State.settle_queue (s : State) : s.settle.queue = s.queue :=
  s.settle_induction (fun t => t.queue = s.queue) rfl fun _ _ _ _ e => by simp [e]
@[simp] theorem State.appendNow_queue (s : State) (b : EntryBody) : (s.appendNow b).1.queue = s.queue := by
  simp [State.appendNow]

@[simp] theorem State.tryStore_links (s : State) (t h : W32) (b : EntryBody) : (s.tryStore t h b).1.links = s.links := by
  rcases s.tryStore_cases t h b with ⟨-, e⟩ | ⟨_, _, -, -, -, e⟩ | ⟨_, _, -, -, -, e⟩
  · rw [e]
  · rw [e]
  · rw [e]; rfl
@[simp] theorem State.storeOrCount_links (s : State) (t h : W32) (b : EntryBody) : (s.storeOrCount t h b).1.links = s.links := by
  have k := s.tryStore_links t h b
  rcases s.storeOrCount_cases t h b with ⟨_, _, e, e'⟩ | ⟨_, e, e'⟩ <;> (rw [e']; rw [e] at k; exact k)
@[simp] theorem State.takeAppend_links (s : State) (t h : W32) (b : EntryBody) : (s.takeAppend t h b).1.links = s.links := by
  rcases s.takeAppend_cases t h b with ⟨-, e⟩ | ⟨-, ⟨s', _, e, e'⟩ | ⟨s', e, e'⟩⟩
  · rw [e]; exact s.storeOrCount_links t h b
  · have k := congrArg (fun o => o.1.links) e
    rw [e', State.storeOrCount_links]; exact k.symm.trans (s.tryStore_links ..)
  · have k := congrArg (fun o => o.1.links) e
    rw [e']; exact k.symm.trans (s.tryStore_links ..)
@[simp] theorem State.settle_links (s : State) : s.settle.links = s.links :=
  s.settle_induction (fun t => t.links = s.links) rfl fun _ _ _ _ e => by simp [e]
@[simp] theorem State.appendNow_links (s : State) (b : EntryBody) : (s.appendNow b).1.links = s.links := by
  simp [State.appendNow]

@[simp] theorem State.tryStore_portC (s : State) (t h : W32) (b : EntryBody) : (s.tryStore t h b).1.portC = s.portC := by
  rcases s.tryStore_cases t h b with ⟨-, e⟩ | ⟨_, _, -, -, -, e⟩ | ⟨_, _, -, -, -, e⟩
  · rw [e]
  · rw [e]
  · rw [e]; rfl
@[simp] theorem State.storeOrCount_portC (s : State) (t h : W32) (b : EntryBody) : (s.storeOrCount t h b).1.portC = s.portC := by
  have k := s.tryStore_portC t h b
  rcases s.storeOrCount_cases t h b with ⟨_, _, e, e'⟩ | ⟨_, e, e'⟩ <;> (rw [e']; rw [e] at k; exact k)
@[simp] theorem State.takeAppend_portC (s : State) (t h : W32) (b : EntryBody) : (s.takeAppend t h b).1.portC = s.portC := by
  rcases s.takeAppend_cases t h b with ⟨-, e⟩ | ⟨-, ⟨s', _, e, e'⟩ | ⟨s', e, e'⟩⟩
  · rw [e]; exact s.storeOrCount_portC t h b
  · have k := congrArg (fun o => o.1.portC) e
    rw [e', State.storeOrCount_portC]; exact k.symm.trans (s.tryStore_portC ..)
  · have k := congrArg (fun o => o.1.portC) e
    rw [e']; exact k.symm.trans (s.tryStore_portC ..)
@[simp] theorem State.settle_portC (s : State) : s.settle.portC = s.portC :=
  s.settle_induction (fun t => t.portC = s.portC) rfl fun _ _ _ _ e => by simp [e]
@[simp] theorem State.appendNow_portC (s : State) (b : EntryBody) : (s.appendNow b).1.portC = s.portC := by
  simp [State.appendNow]

@[simp] theorem State.tryStore_attnLow (s : State) (t h : W32) (b : EntryBody) : (s.tryStore t h b).1.attnLow = s.attnLow := by
  rcases s.tryStore_cases t h b with ⟨-, e⟩ | ⟨_, _, -, -, -, e⟩ | ⟨_, _, -, -, -, e⟩
  · rw [e]
  · rw [e]
  · rw [e]; rfl
@[simp] theorem State.storeOrCount_attnLow (s : State) (t h : W32) (b : EntryBody) : (s.storeOrCount t h b).1.attnLow = s.attnLow := by
  have k := s.tryStore_attnLow t h b
  rcases s.storeOrCount_cases t h b with ⟨_, _, e, e'⟩ | ⟨_, e, e'⟩ <;> (rw [e']; rw [e] at k; exact k)
@[simp] theorem State.takeAppend_attnLow (s : State) (t h : W32) (b : EntryBody) : (s.takeAppend t h b).1.attnLow = s.attnLow := by
  rcases s.takeAppend_cases t h b with ⟨-, e⟩ | ⟨-, ⟨s', _, e, e'⟩ | ⟨s', e, e'⟩⟩
  · rw [e]; exact s.storeOrCount_attnLow t h b
  · have k := congrArg (fun o => o.1.attnLow) e
    rw [e', State.storeOrCount_attnLow]; exact k.symm.trans (s.tryStore_attnLow ..)
  · have k := congrArg (fun o => o.1.attnLow) e
    rw [e']; exact k.symm.trans (s.tryStore_attnLow ..)
@[simp] theorem State.settle_attnLow (s : State) : s.settle.attnLow = s.attnLow :=
  s.settle_induction (fun t => t.attnLow = s.attnLow) rfl fun _ _ _ _ e => by simp [e]
@[simp] theorem State.appendNow_attnLow (s : State) (b : EntryBody) : (s.appendNow b).1.attnLow = s.attnLow := by
  simp [State.appendNow]

@[simp] theorem State.tryStore_pins (s : State) (t h : W32) (b : EntryBody) : (s.tryStore t h b).1.pins = s.pins := by
  rcases s.tryStore_cases t h b with ⟨-, e⟩ | ⟨_, _, -, -, -, e⟩ | ⟨_, _, -, -, -, e⟩
  · rw [e]
  · rw [e]
  · rw [e]; rfl
@[simp] theorem State.storeOrCount_pins (s : State) (t h : W32) (b : EntryBody) : (s.storeOrCount t h b).1.pins = s.pins := by
  have k := s.tryStore_pins t h b
  rcases s.storeOrCount_cases t h b with ⟨_, _, e, e'⟩ | ⟨_, e, e'⟩ <;> (rw [e']; rw [e] at k; exact k)
@[simp] theorem State.takeAppend_pins (s : State) (t h : W32) (b : EntryBody) : (s.takeAppend t h b).1.pins = s.pins := by
  rcases s.takeAppend_cases t h b with ⟨-, e⟩ | ⟨-, ⟨s', _, e, e'⟩ | ⟨s', e, e'⟩⟩
  · rw [e]; exact s.storeOrCount_pins t h b
  · have k := congrArg (fun o => o.1.pins) e
    rw [e', State.storeOrCount_pins]; exact k.symm.trans (s.tryStore_pins ..)
  · have k := congrArg (fun o => o.1.pins) e
    rw [e']; exact k.symm.trans (s.tryStore_pins ..)
@[simp] theorem State.settle_pins (s : State) : s.settle.pins = s.pins :=
  s.settle_induction (fun t => t.pins = s.pins) rfl fun _ _ _ _ e => by simp [e]
@[simp] theorem State.appendNow_pins (s : State) (b : EntryBody) : (s.appendNow b).1.pins = s.pins := by
  simp [State.appendNow]

@[simp] theorem State.tryStore_draws (s : State) (t h : W32) (b : EntryBody) : (s.tryStore t h b).1.draws = s.draws := by
  rcases s.tryStore_cases t h b with ⟨-, e⟩ | ⟨_, _, -, -, -, e⟩ | ⟨_, _, -, -, -, e⟩
  · rw [e]
  · rw [e]
  · rw [e]; rfl
@[simp] theorem State.storeOrCount_draws (s : State) (t h : W32) (b : EntryBody) : (s.storeOrCount t h b).1.draws = s.draws := by
  have k := s.tryStore_draws t h b
  rcases s.storeOrCount_cases t h b with ⟨_, _, e, e'⟩ | ⟨_, e, e'⟩ <;> (rw [e']; rw [e] at k; exact k)
@[simp] theorem State.takeAppend_draws (s : State) (t h : W32) (b : EntryBody) : (s.takeAppend t h b).1.draws = s.draws := by
  rcases s.takeAppend_cases t h b with ⟨-, e⟩ | ⟨-, ⟨s', _, e, e'⟩ | ⟨s', e, e'⟩⟩
  · rw [e]; exact s.storeOrCount_draws t h b
  · have k := congrArg (fun o => o.1.draws) e
    rw [e', State.storeOrCount_draws]; exact k.symm.trans (s.tryStore_draws ..)
  · have k := congrArg (fun o => o.1.draws) e
    rw [e']; exact k.symm.trans (s.tryStore_draws ..)
@[simp] theorem State.settle_draws (s : State) : s.settle.draws = s.draws :=
  s.settle_induction (fun t => t.draws = s.draws) rfl fun _ _ _ _ e => by simp [e]
@[simp] theorem State.appendNow_draws (s : State) (b : EntryBody) : (s.appendNow b).1.draws = s.draws := by
  simp [State.appendNow]

@[simp] theorem State.tryStore_pending (s : State) (t h : W32) (b : EntryBody) : (s.tryStore t h b).1.pending = s.pending := by
  rcases s.tryStore_cases t h b with ⟨-, e⟩ | ⟨_, _, -, -, -, e⟩ | ⟨_, _, -, -, -, e⟩
  · rw [e]
  · rw [e]
  · rw [e]; rfl
@[simp] theorem State.storeOrCount_pending (s : State) (t h : W32) (b : EntryBody) : (s.storeOrCount t h b).1.pending = s.pending := by
  have k := s.tryStore_pending t h b
  rcases s.storeOrCount_cases t h b with ⟨_, _, e, e'⟩ | ⟨_, e, e'⟩ <;> (rw [e']; rw [e] at k; exact k)
@[simp] theorem State.takeAppend_pending (s : State) (t h : W32) (b : EntryBody) : (s.takeAppend t h b).1.pending = s.pending := by
  rcases s.takeAppend_cases t h b with ⟨-, e⟩ | ⟨-, ⟨s', _, e, e'⟩ | ⟨s', e, e'⟩⟩
  · rw [e]; exact s.storeOrCount_pending t h b
  · have k := congrArg (fun o => o.1.pending) e
    rw [e', State.storeOrCount_pending]; exact k.symm.trans (s.tryStore_pending ..)
  · have k := congrArg (fun o => o.1.pending) e
    rw [e']; exact k.symm.trans (s.tryStore_pending ..)
@[simp] theorem State.settle_pending (s : State) : s.settle.pending = s.pending :=
  s.settle_induction (fun t => t.pending = s.pending) rfl fun _ _ _ _ e => by simp [e]
@[simp] theorem State.appendNow_pending (s : State) (b : EntryBody) : (s.appendNow b).1.pending = s.pending := by
  simp [State.appendNow]

end Sys2Proof.Machine
end

