-- ==== Sys2Proof/Laws/Lines.lean ====
section
/-! SUPPORT. The end of every meaning: the lines driven, and a command taken by the running part. -/

namespace Sys2Proof.Machine

/-- The level of a line does not depend on how the lines were driven before. -/
@[simp] theorem State.lineLow_drive (s : State) (p : Port) : s.drive.lineLow p = s.lineLow p := rfl

@[simp] theorem State.drive_drive (s : State) : s.drive.drive = s.drive := rfl

@[simp] theorem State.session_drive (s : State) (p : Port) : s.drive.session p = s.session p := rfl

/-- After the lines are driven each stands at its level. -/
theorem State.drive_attnLow_get (s : State) (p : Port) : s.drive.attnLow.get p = s.drive.lineLow p := by cases p <;> rfl

/-- A command taken by a running part. -/
theorem State.whenRunning_of_running {s : State} (h : s.pins.resetLow = false) (f : State → State) :
    s.whenRunning f = .next (f s).drive := by simp [State.whenRunning, h, State.done]

/-- A command while RESET is held low. -/
theorem State.whenRunning_of_resetLow {s : State} (h : s.pins.resetLow = true) (f : State → State) :
    s.whenRunning f = .next s.drive := by simp [State.whenRunning, h, State.done]

/-- A command of the running part goes on, always: with its effect or, under RESET, without. -/
theorem State.whenRunning_cases (s : State) (f : State → State) :
    (s.pins.resetLow = false ∧ s.whenRunning f = .next (f s).drive)
    ∨ (s.pins.resetLow = true ∧ s.whenRunning f = .next s.drive) := by
  cases h : s.pins.resetLow with
  | false => exact .inl ⟨rfl, State.whenRunning_of_running h f⟩
  | true => exact .inr ⟨rfl, State.whenRunning_of_resetLow h f⟩

end Sys2Proof.Machine
end

