-- ==== Sys2Proof/Laws/Blocks.lean ====
section
/-! SUPPORT. What the other shared operations can do: which trigger is taken, taking a slot, the retry of a STARVED store,
passing the lease, requests of an open session and of the lease holder, answering. -/

namespace Sys2Proof.Machine

/-! ### Which trigger is taken, in the terms of R44, R73 and R91 -/

theorem splitTrigger_append {g : WaitingTrigger} {before : List CapEvent} (after : List CapEvent)
    (h : ∀ source tick hc, CapEvent.trigger source tick hc ∈ before → source.origin ≠ g.source.origin) :
    splitTrigger g.source.origin (before ++ CapEvent.trigger g.source g.tick g.hc :: after) = some (before, g, after) := by
  induction before with
  | nil => simp [splitTrigger]
  | cons e rest ih =>
    have ih := ih fun source tick hc hm => h source tick hc (.tail _ hm)
    cases e with
    | trigger source tick hc => simp [splitTrigger, ih, h source tick hc (.head _)]
    | frame f => simp [splitTrigger, ih]
    | config c => simp [splitTrigger, ih]
    | tokenFree => simp [splitTrigger, ih]

theorem splitTrigger_some {origin : TrigOrigin} {inbox before after : List CapEvent} {g : WaitingTrigger}
    (h : splitTrigger origin inbox = some (before, g, after)) :
    inbox = before ++ CapEvent.trigger g.source g.tick g.hc :: after ∧ g.source.origin = origin
      ∧ ∀ source tick hc, CapEvent.trigger source tick hc ∈ before → source.origin ≠ origin := by
  induction inbox generalizing before with
  | nil => cases h
  | cons e rest ih =>
    have pass : (∀ source tick hc, e = CapEvent.trigger source tick hc → source.origin ≠ origin) →
        (match splitTrigger origin rest with
          | none => none
          | some (b, g, a) => some (e :: b, g, a)) = some (before, g, after) →
        e :: rest = before ++ CapEvent.trigger g.source g.tick g.hc :: after ∧ g.source.origin = origin
          ∧ ∀ source tick hc, CapEvent.trigger source tick hc ∈ before → source.origin ≠ origin := by
      intro he hs
      split at hs
      · cases hs
      · rename_i hm
        cases hs
        obtain ⟨rfl, ho, hb⟩ := ih hm
        refine ⟨rfl, ho, fun source tick hc hx => ?_⟩
        cases hx with
        | head => exact he _ _ _ rfl
        | tail _ hx => exact hb _ _ _ hx
    cases e with
    | trigger source tick hc =>
      by_cases ho : source.origin = origin
      · simp only [splitTrigger, ho, if_true] at h
        cases h
        exact ⟨rfl, ho, fun _ _ _ hx => by cases hx⟩
      · simp only [splitTrigger, ho, if_false] at h
        exact pass (fun _ _ _ e => by cases e; exact ho) h
    | frame f => exact pass (fun _ _ _ e => by cases e) h
    | config c => exact pass (fun _ _ _ e => by cases e) h
    | tokenFree => exact pass (fun _ _ _ e => by cases e) h

theorem WaitingTrigger.mayOvertake_iff (g : WaitingTrigger) (before : List CapEvent) : g.mayOvertake before = true ↔
    (g.source.origin = .detectorBank → ∀ f, CapEvent.frame f ∈ before → f.hc + 1 ≠ g.hc) := by
  simp only [WaitingTrigger.mayOvertake, Bool.or_eq_true, bne_iff_ne, Bool.not_eq_true', List.any_eq_false]
  constructor
  · rintro (h | h) hd f hf he
    · exact h hd
    · exact h _ hf (beq_iff_eq.mpr he)
  · intro h
    by_cases hd : g.source.origin = .detectorBank
    · refine .inr fun e he hc => ?_
      cases e with
      | frame f => exact h hd f he (by simpa [CapEvent.isFrameOfClose] using hc)
      | trigger source tick hc' => cases hc
      | config c => cases hc
      | tokenFree => cases hc
    · exact .inl hd

/-- What is taken of an origin is the trigger of that origin that the rules let the store take next. -/
theorem firstTrigger_iff {origin : TrigOrigin} {inbox rest : List CapEvent} {g : WaitingTrigger} :
    firstTrigger origin inbox = some (g, rest) ↔ MayTake inbox g rest ∧ g.source.origin = origin := by
  constructor
  · intro h
    simp only [firstTrigger] at h
    split at h
    · cases h
    · rename_i hs
      split at h
      · rename_i hm
        cases h
        obtain ⟨rfl, rfl, hb⟩ := splitTrigger_some hs
        exact ⟨⟨_, _, rfl, rfl, hb, (WaitingTrigger.mayOvertake_iff _ _).mp hm⟩, rfl⟩
      · cases h
  · rintro ⟨⟨before, after, rfl, rfl, hb, hm⟩, rfl⟩
    simp [firstTrigger, splitTrigger_append after hb, (WaitingTrigger.mayOvertake_iff _ _).mpr hm]

theorem mem_nextTriggers {inbox rest : List CapEvent} {g : WaitingTrigger} : (g, rest) ∈ nextTriggers inbox ↔ MayTake inbox g rest := by
  have all : ∀ o : TrigOrigin, o ∈ [TrigOrigin.detectorBank, .host, .xtrigIn] := by intro o; cases o <;> simp
  simp only [nextTriggers, List.mem_filterMap, firstTrigger_iff]
  exact ⟨fun ⟨_, _, h, _⟩ => h, fun h => ⟨_, all _, h, rfl⟩⟩

/-- At most one trigger of each origin may be taken next. -/
theorem nextTriggers_pairwise (inbox : List CapEvent) :
    (nextTriggers inbox).Pairwise fun x y => x.1.source.origin ≠ y.1.source.origin := by
  have hp : [TrigOrigin.detectorBank, .host, .xtrigIn].Pairwise (· ≠ ·) := by decide
  refine List.Pairwise.filterMap _ (fun o o' ho x hx y hy => ?_) hp
  rw [(firstTrigger_iff.mp hx).2, (firstTrigger_iff.mp hy).2]
  exact ho

theorem State.drawTrigger_none {s : State} (h : ∀ g rest, ¬ MayTake s.store.inbox g rest) : s.drawTrigger = none := by
  have : nextTriggers s.store.inbox = [] := List.eq_nil_iff_forall_not_mem.mpr fun x hx => h _ _ (mem_nextTriggers.mp hx)
  simp [State.drawTrigger, this]

/-- Where a trigger may be taken, one is: the only one, or one of several with a draw. -/
theorem State.drawTrigger_some {s : State} (h : ∃ g rest, MayTake s.store.inbox g rest) :
    ∃ g rest drawn, s.drawTrigger = some (g, rest, drawn) ∧ MayTake s.store.inbox g rest
      ∧ ((drawn = s ∧ ∀ g' rest', MayTake s.store.inbox g' rest' → g' = g ∧ rest' = rest)
        ∨ (drawn = { s with draws := s.draws + 1 }
          ∧ ∃ g' rest', MayTake s.store.inbox g' rest' ∧ g'.source.origin ≠ g.source.origin)) := by
  have hm := fun g rest => @mem_nextTriggers s.store.inbox rest g
  have hp := nextTriggers_pairwise s.store.inbox
  simp only [State.drawTrigger]
  split
  · rename_i hn
    obtain ⟨g, rest, hg⟩ := h
    rw [← hm, hn] at hg
    cases hg
  · rename_i g rest hn
    refine ⟨g, rest, s, rfl, (hm _ _).mp (by simp [hn]), .inl ⟨rfl, fun g' rest' h' => ?_⟩⟩
    rw [← hm, hn, List.mem_singleton] at h'
    cases h'
    exact ⟨rfl, rfl⟩
  · rename_i first second more hn
    rw [hn] at hp
    obtain ⟨x, hx⟩ : ∃ x, (first :: second :: more).getD (Config.triggerTaken s.draws % (more.length + 2)) first = x := ⟨_, rfl⟩
    have hmem : x ∈ first :: second :: more := by
      have hl : Config.triggerTaken s.draws % (more.length + 2) < (first :: second :: more).length := Nat.mod_lt _ (by omega)
      rw [← hx, List.getD_eq_getElem _ _ hl]
      exact List.getElem_mem hl
    have other : ∃ y ∈ first :: second :: more, y.1.source.origin ≠ x.1.source.origin := by
      have h12 := (List.pairwise_cons.mp hp).1 second (.head _)
      by_cases hf : first.1.source.origin = x.1.source.origin
      · exact ⟨second, .tail _ (.head _), fun hs => h12 (hf.trans hs.symm)⟩
      · exact ⟨first, .head _, hf⟩
    obtain ⟨y, hy, hne⟩ := other
    simp only [hx]
    exact ⟨x.1, x.2, _, rfl, (hm _ _).mp (hn ▸ hmem), .inr ⟨rfl, y.1, y.2, (hm _ _).mp (hn ▸ hy), hne⟩⟩

/-! ### Taking a slot, in the terms of R96 -/

theorem lowestFree_none {used : List SlotId} (h : ∀ k : SlotId, k ∈ used) : lowestFree used = none := by
  simp [lowestFree, h]

theorem lowestOf_eq {slots : List SlotId} {i : SlotId} (h : IsLowest slots i) : lowestOf slots = some i := by
  obtain ⟨h1, h2⟩ := h
  rw [lowestOf, List.find?_eq_some_iff_append]
  refine ⟨by simpa using h1, allSlots.take i.val, allSlots.drop (i.val + 1), ?_, ?_⟩
  · clear h1 h2; revert i; decide
  · intro k hk
    have : k < i := by clear h1 h2; revert i k; decide
    have hn : k ∉ slots := fun hm => absurd (h2 k hm) (by simpa using this)
    simpa using hn

theorem Capture.unheld_iff (c : Capture) : c.unheld = true ↔ c.holders = PerPort.all false := by
  cases hh : c.holders with
  | mk a b d => cases a <;> cases b <;> cases d <;> simp [Capture.unheld, hh, PerPort.all]

theorem Capture.heldByYield_iff (c : Capture) (token : Option Port) : c.heldByYield token = true ↔ ¬ c.HeldByHold token := by
  cases token <;> simp [Capture.heldByYield, Capture.HeldByHold]

theorem Capture.HeldByHold.not_unheld {c : Capture} {token : Option Port} (h : c.HeldByHold token) : c.unheld = false := by
  obtain ⟨p, -, h⟩ := h
  cases hu : c.unheld with
  | false => rfl
  | true => rw [(c.unheld_iff).mp hu] at h; cases p <;> simp [PerPort.all, PerPort.get] at h

/-- R96 reclaims the capture that its steps 2 and 3 name. -/
theorem reclaimChoice_some {token : Option Port} {l : List Capture} {c : Capture} (h : c.Reclaimed token l) :
    reclaimChoice l token = some c := by
  obtain ⟨before, after, rfl, ⟨h0, hb⟩ | ⟨ha, hn, hb⟩⟩ := h
  · have : (before ++ c :: after).find? Capture.unheld = some c := by
      rw [List.find?_eq_some_iff_append]
      exact ⟨(c.unheld_iff).mpr h0, before, after, rfl, fun b hm => by
        simpa [← Bool.not_eq_true, Capture.unheld_iff] using hb b hm⟩
    simp only [reclaimChoice, this]
  · have h1 : (before ++ c :: after).find? Capture.unheld = none := by
      rw [List.find?_eq_none]; exact fun b hm => by simpa [← Bool.not_eq_true, Capture.unheld_iff] using ha b hm
    have h2 : (before ++ c :: after).find? (fun x => x.heldByYield token) = some c := by
      rw [List.find?_eq_some_iff_append]
      exact ⟨(c.heldByYield_iff token).mpr hn, before, after, rfl, fun b hm => by
        simpa [Bool.not_eq_true', ← Bool.not_eq_true, Capture.heldByYield_iff] using hb b hm⟩
    simp only [reclaimChoice, h1, h2]

/-- Nothing is reclaimed where the HOLD session holds every capture. -/
theorem reclaimChoice_none {token : Option Port} {l : List Capture} (h : ∀ b ∈ l, b.HeldByHold token) : reclaimChoice l token = none := by
  have h1 : l.find? Capture.unheld = none := by
    rw [List.find?_eq_none]; exact fun b hm => by simp [(h b hm).not_unheld]
  have h2 : l.find? (fun x => x.heldByYield token) = none := by
    rw [List.find?_eq_none]; exact fun b hm => by simpa [Capture.heldByYield_iff] using h b hm
  simp only [reclaimChoice, h1, h2]

theorem State.reclaim_eq (s : State) (c : Capture) (tick hc : W32) : s.reclaim c tick hc = s.withReclaimed c tick hc := by
  simp only [State.reclaim, State.withReclaimed, State.hand, State.latchHosts, State.onSessions, Latches.setCaptureReclaimed, bne, decide_not]
  rfl

/-- With no FREE slot, a slot comes from the capture that R96 names. -/
theorem State.takeSlot_reclaims {s : State} {busy : List SlotId} {c : Capture} {i : SlotId} (tick hc : W32)
    (hf : ∀ k : SlotId, k ∈ s.store.sealedCaptures.flatMap Capture.slots ++ busy)
    (hr : c.Reclaimed s.token s.store.sealedCaptures) (hi : IsLowest c.slots i) :
    s.takeSlot busy tick hc = (s.withReclaimed c tick hc, some i) := by
  simp only [State.takeSlot, lowestFree_none hf, reclaimChoice_some hr, lowestOf_eq hi, State.reclaim_eq]

/-- With no FREE slot and every capture held by the HOLD session, no slot can be taken. -/
theorem State.takeSlot_none {s : State} {busy : List SlotId} (tick hc : W32)
    (hf : ∀ k : SlotId, k ∈ s.store.sealedCaptures.flatMap Capture.slots ++ busy)
    (hh : ∀ b ∈ s.store.sealedCaptures, b.HeldByHold s.token) : s.takeSlot busy tick hc = (s, none) := by
  simp only [State.takeSlot, lowestFree_none hf, reclaimChoice_none hh]

/-- A slot is taken free, or from a reclaimed capture, or not at all (R96). -/
theorem State.takeSlot_cases (s : State) (busy : List SlotId) (tick hc : W32) :
    (∃ i, lowestFree (s.store.sealedCaptures.flatMap Capture.slots ++ busy) = some i
      ∧ s.takeSlot busy tick hc = (s, some i))
    ∨ (lowestFree (s.store.sealedCaptures.flatMap Capture.slots ++ busy) = none ∧
        ((reclaimChoice s.store.sealedCaptures s.token = none ∧ s.takeSlot busy tick hc = (s, none))
          ∨ ∃ c, reclaimChoice s.store.sealedCaptures s.token = some c
            ∧ s.takeSlot busy tick hc = (s.reclaim c tick hc, lowestOf c.slots))) := by
  cases h : lowestFree (s.store.sealedCaptures.flatMap Capture.slots ++ busy) with
  | some i => exact .inl ⟨i, rfl, by simp only [State.takeSlot, h]⟩
  | none =>
    refine .inr ⟨rfl, ?_⟩
    cases hc' : reclaimChoice s.store.sealedCaptures s.token with
    | none => exact .inl ⟨rfl, by simp only [State.takeSlot, h, hc']⟩
    | some c => exact .inr ⟨c, rfl, by simp only [State.takeSlot, h, hc']⟩

/-- Arming takes a slot for the live ring, or leaves the store STARVED (R95, R97, R104). -/
theorem State.armStore_cases (s : State) (tick hc : W32) :
    (∃ t i, s.takeSlot [] tick hc = (t, some i) ∧ s.armStore tick hc = t.setMode (.live i []))
    ∨ (∃ t, s.takeSlot [] tick hc = (t, none) ∧ s.armStore tick hc = t.setMode .starved) := by
  cases h : s.takeSlot [] tick hc with
  | mk t r => cases r with
    | some i => exact .inl ⟨t, i, rfl, by simp only [State.armStore, h]⟩
    | none => exact .inr ⟨t, rfl, by simp only [State.armStore, h]⟩

/-- Only a STARVED store tries again (R97). -/
theorem State.retryStarved_cases (s : State) :
    (s.store.mode = .starved ∧ s.retryStarved = s.armStore s.nowTick s.nowHc)
    ∨ (s.store.mode ≠ .starved ∧ s.retryStarved = s) := by
  cases h : s.store.mode <;> simp [State.retryStarved, h]

/-- The lease becomes FREE, or is granted to the first waiter (R137). -/
theorem State.passLease_cases (s : State) :
    (s.queue = [] ∧ s.passLease = { s with lease := none })
    ∨ (∃ w rest, s.queue = w :: rest ∧ s.passLease =
        (({ s with lease := some (s.newTenure w.host w.seconds), queue := rest }.handNow .leaseArbiter
          (.leaseEvent .granted w.host)).latch w.host Latches.setLeaseGranted)) := by
  cases h : s.queue with
  | nil => exact .inl ⟨rfl, by simp only [State.passLease, h]⟩
  | cons w rest => exact .inr ⟨w, rest, rfl, by simp only [State.passLease, h]⟩

/-- A request of an open session. -/
theorem State.withSession_some {s : State} {p : Port} {x : Session} (h : s.session p = some x) (f : Session → State × Reply) :
    s.withSession p f = f x := by simp only [State.withSession, h]

/-- A request of the lease holder (check 6). -/
theorem State.withLease_holder {s : State} {t : Tenure} (h : s.lease = some t) (f : Tenure → State × Reply) :
    s.withLease t.holder f = f t := by simp only [State.withLease, h, if_true]

/-- A request of anyone else (check 6). -/
theorem State.withLease_other {s : State} {p : Port} (h : s.holdsLease p = false) (f : Tenure → State × Reply) :
    s.withLease p f = (s, Reply.refuse .notLeaseholder) := by
  cases hl : s.lease with
  | none => simp only [State.withLease, hl]
  | some t =>
    have ht : ¬ t.holder = p := by simpa [State.holdsLease, hl] using h
    simp only [State.withLease, hl, ht, if_false]

/-- An ending session that holds no lease leaves the queue alone (R136). -/
theorem State.forfeitLease_cases (s : State) (p : Port) :
    (s.holdsLease p = true ∧ s.forfeitLease p = s.endTenure .forfeited p)
    ∨ (s.holdsLease p = false ∧ s.forfeitLease p = { s with queue := s.queue.filter fun w => w.host != p }) := by
  cases h : s.holdsLease p <;> simp [State.forfeitLease, h]

/-- A frame is refused by a general check, or its request is served (R161, R175). -/
theorem State.takeRequestFrame_cases (s : State) (p : Port) (deadline : Option W32) (f : RequestFrame) :
    (∃ st, s.judge p f = .fails st ∧ s.takeRequestFrame p deadline f = s.refuseFrame p f.tag st)
    ∨ (∃ r, s.judge p f = .passes r ∧ s.takeRequestFrame p deadline f = s.serve p deadline f.tag r) := by
  cases h : s.judge p f with
  | fails st => exact .inl ⟨st, rfl, by simp only [State.takeRequestFrame, h]⟩
  | passes r => exact .inr ⟨r, rfl, by simp only [State.takeRequestFrame, h]⟩

end Sys2Proof.Machine
end

