-- ==== Sys2Proof/Laws/Frames.lean ====
section
/-! SUPPORT. Request frames: the check byte, the code and the payload of a request read back as that request, and what a request
does that is complete on a port which can take it. -/

namespace Sys2Proof.Machine

theorem byteSum_append (l m : List Byte) : byteSum (l ++ m) = byteSum l + byteSum m := by
  induction l with
  | nil => simp [byteSum]
  | cons x l ih => simp [byteSum, ih, BitVec.add_assoc]

theorem byteSum_append_checkByte (l : List Byte) : byteSum (l ++ [checkByte l]) = 0xFF := by
  simp only [byteSum_append, byteSum, checkByte]
  generalize byteSum l = x
  simp [BitVec.add_comm x]

theorem frameOf_sum (tag : Byte) (r : Request) : (frameOf tag r).sum = 0xFF := by
  simpa [RequestFrame.sum, RequestFrame.length, frameOf] using
    byteSum_append_checkByte (tag :: (reqCodeOf r).byte :: byteOf (reqPayload r).length :: reqPayload r)

theorem ReqCode.ofByte_byte (c : ReqCode) : ReqCode.ofByte c.byte = some c := by cases c <;> decide

theorem ReqCode.lengthOk_reqPayload {r : Request} (h : r.wellFormed = true) :
    (reqCodeOf r).lengthOk (reqPayload r).length = true := by
  cases r with
  | appendNote data => simpa [reqCodeOf, reqPayload, ReqCode.lengthOk] using of_decide_eq_true h
  | defineReadSet codes => exact h
  | _ => rfl

theorem word16_be16 (x : W16) : word16 (x.extractLsb' 8 8) (x.extractLsb' 0 8) = x := by
  apply BitVec.eq_of_getLsbD_eq
  intro i hi
  simp only [word16, BitVec.getLsbD_append, BitVec.getLsbD_extractLsb']
  by_cases h : i < 8
  · simp [h]
  · have h2 : i - 8 < 8 := by omega
    have h3 : 8 + (i - 8) = i := by omega
    simp [h, h2, h3]

theorem word32_be32 (x : W32) :
    word32 (x.extractLsb' 24 8) (x.extractLsb' 16 8) (x.extractLsb' 8 8) (x.extractLsb' 0 8) = x := by
  apply BitVec.eq_of_getLsbD_eq
  intro i hi
  simp only [word32, BitVec.getLsbD_append, BitVec.getLsbD_extractLsb']
  by_cases h0 : i < 8
  · simp [h0]
  by_cases h1 : i < 16
  · have ha : i - 8 < 8 := by omega
    have hb : 8 + (i - 8) = i := by omega
    simp [h0, ha, hb]
  by_cases h2 : i < 24
  · have ha : ¬ i - 8 < 8 := by omega
    have hb : i - 8 - 8 < 8 := by omega
    have hc : 16 + (i - 8 - 8) = i := by omega
    simp [h0, ha, hb, hc]
  · have ha : ¬ i - 8 < 8 := by omega
    have hb : ¬ i - 8 - 8 < 8 := by omega
    have hd : i - 8 - 8 - 8 < 8 := by omega
    have hc : 24 + (i - 8 - 8 - 8) = i := by omega
    simp [h0, ha, hb, hc, hd]

theorem ReqCode.read_reqPayload {r : Request} (h : r.wellFormed = true) :
    (reqCodeOf r).read (reqPayload r) = some r := by
  cases r with
  | appendNote d => exact if_pos (of_decide_eq_true h)
  | defineReadSet d => exact if_pos (of_decide_eq_true h)
  | ackEntries x => exact congrArg (fun y => some (Request.ackEntries y)) (word32_be32 x)
  | readFrames a b c d => 
    show some (Request.readFrames (word16 _ _) b (word16 _ _) d) = _
    rw [word16_be16, word16_be16]
  | releaseCapture x => exact congrArg (fun y => some (Request.releaseCapture y)) (word16_be16 x)
  | storeStatus x => exact congrArg (fun y => some (Request.storeStatus y)) (word16_be16 x)
  | stageWrite a b c x => exact congrArg (fun y => some (Request.stageWrite a b c y)) (word16_be16 x)
  | restart x => exact congrArg (fun y => some (Request.restart y)) (word16_be16 x)
  | _ => rfl

/-- The good frame of a request passes the general checks of a part that is not RESTART_PENDING, on a port with a session or for
a request that needs none. -/
theorem State.judge_frameOf (s : State) (p : Port) (tag : Byte) {r : Request} (hr : r.wellFormed = true)
    (hd : s.config.restartDue = none) (hs : (reqCodeOf r).needsSession = true → (s.session p).isSome = true) :
    s.judge p (frameOf tag r) = .passes r := by
  have h1 : (frameOf tag r).sum = 0xFF := frameOf_sum tag r
  have h2 : ReqCode.ofByte (frameOf tag r).code = some (reqCodeOf r) := ReqCode.ofByte_byte _
  have h3 : (reqCodeOf r).lengthOk (frameOf tag r).payload.length = true := ReqCode.lengthOk_reqPayload hr
  have h4 : (reqCodeOf r).read (frameOf tag r).payload = some r := ReqCode.read_reqPayload hr
  have h5 : ((reqCodeOf r).needsSession && (s.session p).isNone) = false := by
    cases hn : (reqCodeOf r).needsSession with
    | false => rfl
    | true => cases hx : s.session p with
      | none => simp [hx] at hs; exact absurd hn (by simp [hs])
      | some x => rfl
  simp [State.judge, h1, h2, h3, h4, h5, hd]

theorem State.restartIdle_session (s : State) (p : Port) :
    (s.restartIdle p).session p = (s.session p).map (s.touched p) := by
  simp only [State.restartIdle, State.session, State.onSession_sessions, PerPort.get_set_self]
  rfl

/-- A request that a port can take is taken as it arrives: after the idle deadline is set, the block carries it out and it is
answered. -/
theorem State.request_eq (s : State) (p : Port) (tag : Byte) {r : Request} (hr : r.wellFormed = true) (h : s.readyFor p)
    (hs : (reqCodeOf r).needsSession = true → (s.session p).isSome = true) :
    s.request p tag r = (s.restartIdle p).serve p (s.deadlineFrom p) tag r := by
  obtain ⟨-, hd, hc⟩ := h
  have hj : (s.restartIdle p).judge p (frameOf tag r) = .passes r := by
    refine State.judge_frameOf (s.restartIdle p) p tag hr hd ?_
    intro hn
    simpa [State.restartIdle_session] using hs hn
  cases p with
  | a => simp [State.request, State.arrive, State.takeRequestFrame, hj]; rfl
  | b => simp [State.request, State.arrive, State.takeRequestFrame, hj]; rfl
  | c =>
    have h0 : (s.restartIdle .c).portC.sending = none := hc rfl
    simp [State.request, State.arrive, State.arriveOnC, State.takeRequestFrame, h0, hj]; rfl

/-- The state of a running port with an open session, after the idle deadline is set. -/
theorem State.restartIdle_eq (s : State) (p : Port) {x : Session} (hx : s.session p = some x) :
    s.restartIdle p = s.setSession p (some (s.touched p x)) := by
  have : s.sessions.get p = some x := hx
  simp [State.restartIdle, State.onSession, State.setSession, State.touched, this]

/-- Every request command, on a port that can take it. -/
theorem exec_commandOf (s : State) (p : Port) (tag : Byte) {r : Request} (hr : r.wellFormed = true) (h : s.readyFor p)
    (hs : (reqCodeOf r).needsSession = true → (s.session p).isSome = true) :
    exec (commandOf p tag r) s = .next ((s.restartIdle p).serve p (s.deadlineFrom p) tag r).drive := by
  have e : exec (commandOf p tag r) s = s.whenRunning fun s => s.request p tag r := by cases r <;> rfl
  rw [e]
  simp only [State.whenRunning, h.1, Bool.false_eq_true, if_false, State.done]
  rw [State.request_eq s p tag hr h hs]

/-- A request that its block answers without an effect leaves everything but the idle deadline (R177). -/
theorem exec_onlyReplied {s : State} {p : Port} {tag : Byte} {x : Session} {r : Request} {reply : Reply} (h : s.readyFor p)
    (hx : s.session p = some x) (hr : r.wellFormed = true)
    (hp : (s.setSession p (some (s.touched p x))).perform p (s.deadlineFrom p) r = (s.setSession p (some (s.touched p x)), reply)) :
    exec (commandOf p tag r) s = .next (s.onlyReplied p tag x reply) := by
  rw [exec_commandOf s p tag hr h (by intro _; simp [hx]), State.restartIdle_eq s p hx]
  simp only [State.serve, hp]; rfl

end Sys2Proof.Machine
end

