-- ==== Sys2Proof/Laws/Numbers.lean ====
section
/-! SUPPORT. Sequence numbers: the successor and the predecessor that skip zero, and the distance back from `next_seq`. -/

namespace Sys2Proof.Machine

theorem toNat_ne_zero {x : W32} (h : x ≠ 0) : x.toNat ≠ 0 := fun e => h (BitVec.eq_of_toNat_eq e)

theorem seqSucc_toNat (x : W32) : (seqSucc x).toNat = if x.toNat = 0xFFFFFFFF then 1 else x.toNat + 1 := by
  have d := x.isLt
  by_cases e : x = 0xFFFFFFFF
  · subst e; rfl
  · have f : x.toNat ≠ 0xFFFFFFFF := fun k => e (BitVec.eq_of_toNat_eq k)
    simp only [seqSucc, e, f, if_false, BitVec.toNat_add]
    change (x.toNat + 1) % 2 ^ 32 = _
    omega

theorem seqPred_toNat {x : W32} (h : x ≠ 0) : (seqPred x).toNat = if x.toNat = 1 then 0xFFFFFFFF else x.toNat - 1 := by
  have d := x.isLt
  have z := toNat_ne_zero h
  by_cases e : x = 1
  · subst e; rfl
  · have f : x.toNat ≠ 1 := fun k => e (BitVec.eq_of_toNat_eq k)
    simp only [seqPred, e, f, if_false, BitVec.toNat_sub]
    change (2 ^ 32 - 1 + x.toNat) % 2 ^ 32 = _
    omega

theorem seqSucc_ne_zero (x : W32) : seqSucc x ≠ 0 := by
  intro e
  have k := seqSucc_toNat x
  rw [e] at k
  change 0 = _ at k
  split at k <;> omega

theorem seqPred_ne_zero {x : W32} (h : x ≠ 0) : seqPred x ≠ 0 := by
  intro e
  have k := seqPred_toNat h
  have z := toNat_ne_zero h
  rw [e] at k
  change 0 = _ at k
  split at k <;> omega

theorem seqPred_seqSucc {x : W32} (h : x ≠ 0) : seqPred (seqSucc x) = x := by
  apply BitVec.eq_of_toNat_eq
  have z := toNat_ne_zero h
  rw [seqPred_toNat (seqSucc_ne_zero x), seqSucc_toNat]
  split <;> split <;> omega

theorem seqSucc_seqPred {x : W32} (h : x ≠ 0) : seqSucc (seqPred x) = x := by
  apply BitVec.eq_of_toNat_eq
  have z := toNat_ne_zero h
  have d := x.isLt
  rw [seqSucc_toNat, seqPred_toNat h]
  split <;> split <;> omega

theorem distance_self (x : W32) : distance x x = 0 := by simp [distance]

/-- Storing an entry puts every number one further back, but for the number stored next. -/
theorem distance_seqSucc {next x : W32} (hn : next ≠ 0) (hx : x ≠ 0) (h : distance next x < 0xFFFFFFFE) :
    distance (seqSucc next) x = distance next x + 1 := by
  have := toNat_ne_zero hn
  have := toNat_ne_zero hx
  have := next.isLt
  have := x.isLt
  simp only [distance, seqSucc_toNat] at *
  split at h <;> split <;> split <;> omega

/-- The number after one that is not `next_seq` itself is one nearer. -/
theorem distance_of_seqSucc {next x : W32} (hn : next ≠ 0) (hx : x ≠ 0) (h : x ≠ next) :
    distance next (seqSucc x) + 1 = distance next x := by
  have := toNat_ne_zero hn
  have := toNat_ne_zero hx
  have k : x.toNat ≠ next.toNat := fun e => h (BitVec.eq_of_toNat_eq e)
  have := next.isLt
  have := x.isLt
  simp only [distance, seqSucc_toNat]
  split <;> split <;> split <;> omega

/-- A number is `next_seq` exactly when its distance is zero. -/
theorem distance_eq_zero {next x : W32} (hn : next ≠ 0) (hx : x ≠ 0) : distance next x = 0 ↔ x = next := by
  have := toNat_ne_zero hn
  have := toNat_ne_zero hx
  have := next.isLt
  have := x.isLt
  constructor
  · intro h
    apply BitVec.eq_of_toNat_eq
    simp only [distance] at h
    split at h <;> omega
  · rintro rfl; exact distance_self _

theorem seqsBefore_length (next : W32) (n : Nat) : (seqsBefore next n).length = n := by
  induction n generalizing next with
  | zero => rfl
  | succ n ih => simp [seqsBefore, ih]

end Sys2Proof.Machine
end

