-- ==== Sys2Proof/Laws/PerInstr.lean ====
section
/-! SUPPORT. A statement made for each command as syntax: a command that reads as a request is the command of that request. -/

namespace Sys2Proof.Laws.Form

open Sys2Proof.Machine

/-- A command that is a request is spelt back by the port, the tag and the request it carries. -/
def Statement (i : Instr) : Prop :=
  ∀ port tag r, asRequest i = some (port, tag, r) → commandOf port tag r = i

theorem powerOnReset : Statement .powerOnReset := by
  intro p t r h; cases h

theorem pinReset : Statement .pinReset := by
  intro p t r h; cases h

theorem frameTaken u ia ib : Statement (.frameTaken u ia ib) := by
  intro p t r h; cases h

theorem detectorClose : Statement .detectorClose := by
  intro p t r h; cases h

theorem energyClose : Statement .energyClose := by
  intro p t r h; cases h

theorem pulseHighEnd engine : Statement (.pulseHighEnd engine) := by
  intro p t r h; cases h

theorem pulseGapEnd engine : Statement (.pulseGapEnd engine) := by
  intro p t r h; cases h

theorem energyConfig : Statement .energyConfig := by
  intro p t r h; cases h

theorem energyFault : Statement .energyFault := by
  intro p t r h; cases h

theorem captureFrame : Statement .captureFrame := by
  intro p t r h; cases h

theorem captureTrigger : Statement .captureTrigger := by
  intro p t r h; cases h

theorem xtrigInEdge high : Statement (.xtrigInEdge high) := by
  intro p t r h; cases h

theorem xtrigOutPulseEnd : Statement .xtrigOutPulseEnd := by
  intro p t r h; cases h

theorem captureConfig : Statement .captureConfig := by
  intro p t r h; cases h

theorem captureTokenFree : Statement .captureTokenFree := by
  intro p t r h; cases h

theorem journalAppend source : Statement (.journalAppend source) := by
  intro p t r h; cases h

theorem leaseExpiry : Statement .leaseExpiry := by
  intro p t r h; cases h

theorem leaseWarnStart : Statement .leaseWarnStart := by
  intro p t r h; cases h

theorem integrityScrub : Statement .integrityScrub := by
  intro p t r h; cases h

theorem idleExpiry port : Statement (.idleExpiry port) := by
  intro p t r h; cases h

theorem restartTimeout : Statement .restartTimeout := by
  intro p t r h; cases h

theorem selectFall port : Statement (.selectFall port) := by
  intro p t r h; cases h

theorem selectRise port : Statement (.selectRise port) := by
  intro p t r h; cases h

theorem firstByte port byte : Statement (.firstByte port byte) := by
  intro p t r h; cases h

theorem requestByte port byte : Statement (.requestByte port byte) := by
  intro p t r h; cases h

theorem fetchByte port : Statement (.fetchByte port) := by
  intro p t r h; cases h

theorem frameGapTimeout port : Statement (.frameGapTimeout port) := by
  intro p t r h; cases h

theorem leadPattern i1 i2 i3 i4 nextEdge : Statement (.leadPattern i1 i2 i3 i4 nextEdge) := by
  intro p t r h; cases h

theorem portCByte byte stopHigh : Statement (.portCByte byte stopHigh) := by
  intro p t r h; cases h

theorem responseSent : Statement .responseSent := by
  intro p t r h; cases h

theorem lineBreak : Statement .lineBreak := by
  intro p t r h; cases h

theorem badFrame port tag code payload check : Statement (.badFrame port tag code payload check) := by
  intro p t r h; cases h

theorem openSession port tag start retention : Statement (.openSession port tag start retention) := by
  intro p t r h; cases h; rfl

theorem closeSession port tag : Statement (.closeSession port tag) := by
  intro p t r h; cases h; rfl

theorem portStatus port tag clear : Statement (.portStatus port tag clear) := by
  intro p t r h; cases h; rfl

theorem setAttention port tag mask watermark : Statement (.setAttention port tag mask watermark) := by
  intro p t r h; cases h; rfl

theorem attentionStatus port tag : Statement (.attentionStatus port tag) := by
  intro p t r h; cases h; rfl

theorem setSubscription port tag mask : Statement (.setSubscription port tag mask) := by
  intro p t r h; cases h; rfl

theorem setRetention port tag retention : Statement (.setRetention port tag retention) := by
  intro p t r h; cases h; rfl

theorem readEntries port tag countAndAck : Statement (.readEntries port tag countAndAck) := by
  intro p t r h; cases h; rfl

theorem ackEntries port tag seq : Statement (.ackEntries port tag seq) := by
  intro p t r h; cases h; rfl

theorem rewind port tag : Statement (.rewind port tag) := by
  intro p t r h; cases h; rfl

theorem journalStatus port tag : Statement (.journalStatus port tag) := by
  intro p t r h; cases h; rfl

theorem appendNote port tag data : Statement (.appendNote port tag data) := by
  intro p t r h; cases h; rfl

theorem captureNow port tag : Statement (.captureNow port tag) := by
  intro p t r h; cases h; rfl

theorem captureList port tag : Statement (.captureList port tag) := by
  intro p t r h; cases h; rfl

theorem readFrames port tag id part offset count : Statement (.readFrames port tag id part offset count) := by
  intro p t r h; cases h; rfl

theorem releaseCapture port tag id : Statement (.releaseCapture port tag id) := by
  intro p t r h; cases h; rfl

theorem storeStatus port tag id : Statement (.storeStatus port tag id) := by
  intro p t r h; cases h; rfl

theorem readEnergy port tag : Statement (.readEnergy port tag) := by
  intro p t r h; cases h; rfl

theorem markBaseline port tag mask : Statement (.markBaseline port tag mask) := by
  intro p t r h; cases h; rfl

theorem snapshot port tag : Statement (.snapshot port tag) := by
  intro p t r h; cases h; rfl

theorem readSnapshot port tag : Statement (.readSnapshot port tag) := by
  intro p t r h; cases h; rfl

theorem pulseStatus port tag : Statement (.pulseStatus port tag) := by
  intro p t r h; cases h; rfl

theorem leaseTake port tag seconds wait : Statement (.leaseTake port tag seconds wait) := by
  intro p t r h; cases h; rfl

theorem leaseRelease port tag : Statement (.leaseRelease port tag) := by
  intro p t r h; cases h; rfl

theorem leaseStatus port tag : Statement (.leaseStatus port tag) := by
  intro p t r h; cases h; rfl

theorem stageWrite port tag sec record field value : Statement (.stageWrite port tag sec record field value) := by
  intro p t r h; cases h; rfl

theorem stageRead port tag sec record field : Statement (.stageRead port tag sec record field) := by
  intro p t r h; cases h; rfl

theorem configRead port tag sec record field : Statement (.configRead port tag sec record field) := by
  intro p t r h; cases h; rfl

theorem commit port tag : Statement (.commit port tag) := by
  intro p t r h; cases h; rfl

theorem discard port tag : Statement (.discard port tag) := by
  intro p t r h; cases h; rfl

theorem clearTally port tag mask : Statement (.clearTally port tag mask) := by
  intro p t r h; cases h; rfl

theorem restart port tag generation : Statement (.restart port tag generation) := by
  intro p t r h; cases h; rfl

theorem defineReadSet port tag codes : Statement (.defineReadSet port tag codes) := by
  intro p t r h; cases h; rfl

theorem readSet port tag : Statement (.readSet port tag) := by
  intro p t r h; cases h; rfl

theorem detectorStatus port tag : Statement (.detectorStatus port tag) := by
  intro p t r h; cases h; rfl

theorem tickCount : Statement .tickCount := by
  intro p t r h; cases h

theorem resetRelease : Statement .resetRelease := by
  intro p t r h; cases h

end Sys2Proof.Laws.Form
end

