-- ==== Sys2Proof/Laws/Teardown.lean ====
section
/-! SUPPORT. The teardown of a session (9.5): what each of its parts does and what they do together, in the terms of Safety.lean; and what
the journal does with the entries of a teardown, with room and with an oldest entry that the HOLD session pins. -/

namespace Sys2Proof.Machine

/-! ### The journal with room, and held back -/

/-- The oldest entry is held back exactly when the HOLD session pins it (R16, R17). -/
theorem State.heldBack_iff (s : State) (e : Entry) : s.heldBack e = true ↔
    ∃ p x, s.token = some p ∧ s.session p = some x ∧ x.pinsEntry s.journal.nextSeq e = true := by
  constructor
  · intro h
    simp only [State.heldBack, List.any_eq_true, Bool.and_eq_true] at h
    obtain ⟨p, _, h1, h2⟩ := h
    have ht : s.token = some p := by simpa [State.inHold] using h2
    unfold State.pinner at h1
    cases hx : s.session p with
    | none => simp [hx] at h1
    | some x => exact ⟨p, x, ht, hx, by simpa [hx] using h1⟩
  · rintro ⟨p, x, ht, hx, hp⟩
    simp only [State.heldBack, List.any_eq_true, Bool.and_eq_true]
    exact ⟨p, by cases p <;> decide, by simp [State.pinner, hx, hp], by simp [State.inHold, ht]⟩

/-- With an empty tally and room an append is stored (R15). -/
theorem State.takeAppend_room {s : State} (tick hc : W32) (body : EntryBody) (ht : s.journal.tally.isEmpty = true)
    (h : s.journal.entries.length < journalCapacity) :
    s.takeAppend tick hc body = ({ s with journal := s.journal.push tick hc body }, some s.journal.nextSeq) := by
  simp only [State.takeAppend, ht, State.storeOrCount, State.tryStore, h, if_true]

/-- On a full journal whose oldest entry is held back an append is counted (R13, R17). -/
theorem State.takeAppend_held {s : State} (tick hc : W32) (body : EntryBody) {e : Entry} {es : List Entry}
    (he : s.journal.entries = e :: es) (h : s.journal.entries.length = journalCapacity) (hh : s.heldBack e = true) :
    s.takeAppend tick hc body = (s.countLost tick body, none) := by
  have full : ¬ s.journal.entries.length < journalCapacity := by omega
  have ht : ∀ b, s.tryStore tick hc b = (s, none) := by intro b; rw [State.tryStore, if_neg full]; simp [he, hh]
  unfold State.takeAppend State.storeOrCount
  simp only [ht]
  split <;> rfl

/-- The n-th sequence number after another. -/
def seqAfter : W32 → Nat → W32
  | next, 0 => next
  | next, n + 1 => seqAfter (seqSucc next) n

theorem entriesFrom_length (l : List (W32 × W32 × EntryBody)) : ∀ next, (entriesFrom next l).length = l.length := by
  induction l with
  | nil => intro _; rfl
  | cons a l ih => intro next; simp [entriesFrom, ih]

theorem entriesFrom_append (l m : List (W32 × W32 × EntryBody)) :
    ∀ next, entriesFrom next (l ++ m) = entriesFrom next l ++ entriesFrom (seqAfter next l.length) m := by
  induction l with
  | nil => intro _; rfl
  | cons a l ih => intro next; simp [entriesFrom, ih, seqAfter]

/-- With an empty tally and room for all, appends are stored one after another. -/
theorem State.foldl_takeAppend_room (l : List Append) : ∀ s : State, s.journal.tally.isEmpty = true →
    s.journal.entries.length + l.length ≤ journalCapacity →
    l.foldl (fun s a => (s.takeAppend a.tick a.hc a.body).1) s =
      { s with journal := { s.journal with
          entries := s.journal.entries ++ entriesFrom s.journal.nextSeq (l.map fun a => (a.tick, a.hc, a.body))
          nextSeq := seqAfter s.journal.nextSeq l.length } } := by
  induction l with
  | nil => intro s _ _; simp [entriesFrom, seqAfter]
  | cons a l ih =>
    intro s h1 h2
    simp only [List.length_cons] at h2
    rw [List.foldl_cons, State.takeAppend_room _ _ _ h1 (by omega)]
    refine (ih { s with journal := s.journal.push a.tick a.hc a.body } h1 (by simp [Journal.push]; omega)).trans ?_
    simp [Journal.push, entriesFrom, seqAfter]

/-- With an empty tally and room, an append that needs its outcome is stored after all that waits (log 4). -/
theorem State.appendNow_room {s : State} (body : EntryBody) (ht : s.journal.tally.isEmpty = true)
    (h : s.journal.entries.length + s.journal.waiting.length + 1 ≤ journalCapacity) :
    s.appendNow body =
      ({ s with journal := { s.journal with
          waiting := []
          entries := s.journal.entries ++ entriesFrom s.journal.nextSeq
            ((s.journal.waiting.map fun a => (a.tick, a.hc, a.body)) ++ [(s.front.tick, s.front.hc, body)])
          nextSeq := seqSucc (seqAfter s.journal.nextSeq s.journal.waiting.length) } },
        some (seqAfter s.journal.nextSeq s.journal.waiting.length)) := by
  have hs : s.settle = _ := State.foldl_takeAppend_room s.journal.waiting
    { s with journal := { s.journal with waiting := [] } } ht (by simp; omega)
  have h2 : s.settle.journal.tally = s.journal.tally := by rw [hs]
  have h3 : s.settle.journal.entries.length < journalCapacity := by rw [hs]; simp [entriesFrom_length]; omega
  rw [State.appendNow, State.takeAppend_room _ _ _ (by rw [h2]; exact ht) h3, hs]
  simp [Journal.push, entriesFrom_append, entriesFrom, State.nowTick, State.nowHc]

/-- On a full journal whose oldest entry is held back, appends only count. -/
theorem State.foldl_takeAppend_held (l : List Append) : ∀ (s : State) {e : Entry} {es : List Entry}, s.journal.entries = e :: es →
    s.journal.entries.length = journalCapacity → s.heldBack e = true →
    ∃ tally, l.foldl (fun s a => (s.takeAppend a.tick a.hc a.body).1) s = { s with journal := { s.journal with tally := tally } } := by
  induction l with
  | nil => intro s e es _ _ _; exact ⟨s.journal.tally, rfl⟩
  | cons a l ih =>
    intro s e es h1 h2 h3
    rw [List.foldl_cons, State.takeAppend_held _ _ _ h1 h2 h3]
    exact ih (s.countLost a.tick a.body) (e := e) (es := es) h1 h2 (by rw [State.heldBack_iff] at h3 ⊢; exact h3)

/-! ### Functions of the open sessions -/

theorem PerPort.set_map_get (v : PerPort (Option Session)) (p : Port) (f : Session → Session) :
    v.set p ((v.get p).map f) = v.mapWith fun q x => x.map fun y => if p = q then f y else y := by
  obtain ⟨a, b, c⟩ := v
  cases p <;> simp [PerPort.set, PerPort.get, PerPort.mapWith]

theorem PerPort.mapWith_self (v : PerPort (Option Session)) {f : Port → Session → Session} (h : ∀ q y, f q y = y) :
    (v.mapWith fun q x => x.map (f q)) = v := by
  obtain ⟨a, b, c⟩ := v
  have : ∀ q, f q = id := fun q => funext (h q)
  simp [PerPort.mapWith, this]

theorem PerPort.mapWith_mapWith (v : PerPort (Option Session)) (f g : Port → Session → Session) :
    (v.mapWith fun q x => x.map (f q)).mapWith (fun q x => x.map (g q)) = v.mapWith fun q x => x.map fun y => g q (f q y) := by
  obtain ⟨a, b, c⟩ := v; simp [PerPort.mapWith, Function.comp_def]

/-- A session latched for the grant that a teardown makes (R137). -/
def Session.afterGrant (granted : Option Port) (q : Port) (y : Session) : Session :=
  { y with latches := { y.latches with leaseGranted := y.latches.leaseGranted || decide (granted = some q) } }

/-- A session latched for the capture that a teardown reclaims (R96). -/
def Session.afterReclaim (r : Option (Capture × SlotId)) (q : Port) (y : Session) : Session :=
  { y with latches := { y.latches with captureReclaimed := y.latches.captureReclaimed || r.any fun r => r.1.holders.get q } }

/-! ### The parts of the teardown -/

/-- The grant of a lease that passes on, as a function of every session. -/
theorem Session.afterGrant_set (v : PerPort (Option Session)) (host : Port) :
    v.set host ((v.get host).map fun x => { x with latches := x.latches.setLeaseGranted }) =
      v.mapWith fun q x => x.map (Session.afterGrant (some host) q) := by
  rw [PerPort.set_map_get]
  congr 1; funext q x; congr 1; funext y
  by_cases h : host = q <;> simp [Session.afterGrant, h, Latches.setLeaseGranted]

/-- The Lease Arbiter's part: the lease and the queue without the session, the entries of a forfeit, the latch of a grant (R136, R137). -/
theorem State.forfeitLease_eq (s : State) (p : Port) : s.forfeitLease p = { s with
    lease := (s.leaseWithout p).1, queue := (s.leaseWithout p).2
    journal := { s.journal with
      waiting := s.journal.waiting ++ (s.leaseEntriesAtEnd p).map fun b => ⟨.leaseArbiter, s.front.tick, s.front.hc, b⟩ }
    sessions := s.sessions.mapWith fun q x => x.map (Session.afterGrant (s.grantedAtEnd p) q) } := by
  have hf : (s.queue.filter fun w => w.host != p) = s.queue.filter fun w => decide (w.host ≠ p) := by
    congr 1; funext w; simp [bne, decide_not]; rfl
  have same : s.grantedAtEnd p = none → (s.sessions.mapWith fun q x => x.map (Session.afterGrant (s.grantedAtEnd p) q)) = s.sessions := by
    intro h; exact PerPort.mapWith_self _ fun q y => by simp [Session.afterGrant, h]
  cases hl : s.lease with
  | none =>
    have hg : s.grantedAtEnd p = none := by simp [State.grantedAtEnd, hl]
    rw [same hg]
    simp [State.forfeitLease, State.holdsLease, State.leaseWithout, State.leaseEntriesAtEnd, hl, hf]
  | some t =>
    by_cases ht : t.holder = p
    · cases hq : s.queue with
      | nil =>
        have hg : s.grantedAtEnd p = none := by simp [State.grantedAtEnd, hl, hq]
        rw [same hg]
        simp [State.forfeitLease, State.holdsLease, State.leaseWithout, State.leaseEntriesAtEnd, hl, ht, hq, hg, State.endTenure,
          State.passLease, State.handNow, State.hand, State.nowTick, State.nowHc]
      | cons w rest =>
        have hg : s.grantedAtEnd p = some w.host := by simp [State.grantedAtEnd, hl, hq, ht]
        rw [hg, ← Session.afterGrant_set]
        simp [State.forfeitLease, State.holdsLease, State.leaseWithout, State.leaseEntriesAtEnd, hl, ht, hq, hg, State.endTenure,
          State.passLease, State.handNow, State.hand, State.nowTick, State.nowHc, State.latch, State.onSession, State.newTenure, afterMs]
    · have hg : s.grantedAtEnd p = none := by simp [State.grantedAtEnd, hl, ht]
      rw [same hg]
      simp [State.forfeitLease, State.holdsLease, State.leaseWithout, State.leaseEntriesAtEnd, hl, hf, ht]

/-- The seal order when the teardown has reclaimed. -/
def State.sealedAtEnd (s : State) (p : Port) : Option (Capture × SlotId) → List Capture
  | none => s.capturesWithout p
  | some (c, _) => (s.capturesWithout p).filter fun y => decide (y.id ≠ c.id)

/-- The store's mode when the teardown has reclaimed. -/
def State.modeAtEnd (s : State) : Option (Capture × SlotId) → StoreMode
  | none => s.store.mode
  | some (_, i) => .live i []

/-- The entries of a reclaim. -/
def reclaimBodies (r : Option (Capture × SlotId)) : List EntryBody := r.toList.map fun r => .captureReclaimed r.1.id r.1.holders

/-- The Capture Store's part: no holder set has the session, and a STARVED store tries again (R97, R99). -/
theorem State.dropFromCaptures_eq (s : State) (p : Port) (r : Option (Capture × SlotId)) (ht : s.tokenWithout p = s.token)
    (h : s.RetryAtEnd p r) : s.dropFromCaptures p = { s with
      store := { s.store with sealedCaptures := s.sealedAtEnd p r, mode := s.modeAtEnd r }
      journal := { s.journal with
        waiting := s.journal.waiting ++ (reclaimBodies r).map fun b => ⟨.captureStore, s.front.tick, s.front.hc, b⟩ }
      sessions := s.sessions.mapWith fun q x => x.map (Session.afterReclaim r q) } := by
  have full : (∀ k : SlotId, k ∈ s.store.sealedCaptures.flatMap Capture.slots) →
      ∀ k : SlotId, k ∈ (s.capturesWithout p).flatMap Capture.slots ++ [] := by
    intro h k
    have := h k
    simp only [List.append_nil, List.mem_flatMap, State.capturesWithout] at this ⊢
    obtain ⟨c, hc, hk⟩ := this
    exact ⟨_, List.mem_map.mpr ⟨c, hc, rfl⟩, hk⟩
  let w : State := { s with store := { s.store with sealedCaptures := s.capturesWithout p } }
  have hw : s.dropFromCaptures p = w.retryStarved := rfl
  have htok : s.tokenWithout p = w.token := ht
  cases r with
  | none =>
    rw [PerPort.mapWith_self (f := Session.afterReclaim none) s.sessions fun q y => by simp [Session.afterReclaim]]
    rcases State.retryStarved_cases w with ⟨hm, he⟩ | ⟨hm, he⟩
    · have hm : s.store.mode = .starved := hm
      obtain ⟨hk, hh⟩ := h.resolve_left fun hn => hn hm
      have := State.takeSlot_none (s := w) (busy := []) w.nowTick w.nowHc (full hk) (by rw [← htok]; exact hh)
      rw [hw, he, State.armStore, this]
      simp [State.sealedAtEnd, State.modeAtEnd, reclaimBodies, w, State.setMode, hm]
    · rw [hw, he]
      simp [State.sealedAtEnd, State.modeAtEnd, reclaimBodies, w]
  | some ci =>
    obtain ⟨c, i⟩ := ci
    obtain ⟨hm, hk, hr, hi⟩ := h
    have := State.takeSlot_reclaims (s := w) (busy := []) w.nowTick w.nowHc (full hk) (by rw [← htok]; exact hr) hi
    have hs : (s.sessions.mapWith fun q x => x.map fun y =>
        if c.holders.get q then { y with latches := { y.latches with captureReclaimed := true } } else y) =
        s.sessions.mapWith fun q x => x.map (Session.afterReclaim (some (c, i)) q) := by
      congr 1; funext q x; congr 1; funext y
      cases hq : c.holders.get q <;> simp [Session.afterReclaim, hq]
    rcases State.retryStarved_cases w with ⟨_, he⟩ | ⟨hn, _⟩
    · rw [hw, he, State.armStore, this, ← hs]
      simp [State.sealedAtEnd, State.modeAtEnd, reclaimBodies, w, State.setMode, State.withReclaimed, State.nowTick, State.nowHc]
    · exact absurd hm hn

/-- The record and the HOLD token are gone (R26, R173). -/
theorem State.discardSession_eq (s : State) (p : Port) : s.discardSession p = { s with
    token := s.tokenWithout p, sessions := s.sessions.set p none
    store := { s.store with inbox := s.store.inbox ++ if s.token = some p then [CapEvent.tokenFree] else [] } } := by
  by_cases h : s.token = some p <;> simp [State.discardSession, State.inHold, h, State.tokenWithout, State.freeToken, State.setSession]

/-- The pending snapshot loses a requester (R126). -/
theorem State.dropFromSnapshot_eq (s : State) (p : Port) : s.dropFromSnapshot p = { s with
    energy := { s.energy with
      pendingSnapshot := s.energy.pendingSnapshot.map fun y => { y with requesters := y.requesters.set p false } } } := by
  cases h : s.energy.pendingSnapshot with
  | none => rw [State.dropFromSnapshot, h]; dsimp only [Option.map]; rw [← h]
  | some y => simp [State.dropFromSnapshot, h]

/-! ### The teardown as a whole -/

/-- What the teardown leaves, but for the SESSION_EVENT: `ws` is what it hands to the journal, `draws` the count of draws (R173). -/
def State.tornDown (s : State) (p : Port) (r : Option (Capture × SlotId)) (ws : List Append) (draws : Nat) : State := { s with
  token := s.tokenWithout p, draws := draws, lease := (s.leaseWithout p).1, queue := (s.leaseWithout p).2
  store := { s.store with
    sealedCaptures := s.sealedAtEnd p r, mode := s.modeAtEnd r
    inbox := s.store.inbox ++ if s.token = some p then [CapEvent.tokenFree] else [] }
  energy := { s.energy with
    pendingSnapshot := s.energy.pendingSnapshot.map fun y => { y with requesters := y.requesters.set p false } }
  journal := { s.journal with waiting := s.journal.waiting ++ ws }
  sessions := (s.sessions.set p none).mapWith fun q x =>
    x.map fun y => Session.afterReclaim r q (Session.afterGrant (s.grantedAtEnd p) q y) }

/-- The latches of a grant and of a reclaim are set in either order. -/
theorem Session.afterGrant_afterReclaim (r : Option (Capture × SlotId)) (granted : Option Port) (q : Port) (y : Session) :
    Session.afterGrant granted q (Session.afterReclaim r q y) = Session.afterReclaim r q (Session.afterGrant granted q y) := rfl

/-- The teardown hands over the entries of a forfeit and of a reclaim, those of a forfeit in their order, and what it leaves is one state
whatever the order (R173, log 10). -/
theorem State.tearDown_eq (s : State) (p : Port) (r : Option (Capture × SlotId)) (h : s.RetryAtEnd p r) :
    ∃ ws l1 l2, s.leaseEntriesAtEnd p = l1 ++ l2
      ∧ ws.map (fun (a : Append) => (a.tick, a.hc, a.body)) =
          (l1 ++ reclaimBodies r ++ l2).map (fun b => (s.front.tick, s.front.hc, b))
      ∧ ((s.discardSession p).tearDownBlocks p).dropFromSnapshot p = s.tornDown p r ws (s.draws + 1) := by
  let u : State := { s with
    token := s.tokenWithout p, sessions := s.sessions.set p none, draws := s.draws + 1
    store := { s.store with inbox := s.store.inbox ++ if s.token = some p then [CapEvent.tokenFree] else [] } }
  let ra : List Append := (reclaimBodies r).map fun b => ⟨.captureStore, s.front.tick, s.front.hc, b⟩
  let la : List EntryBody → List Append := fun l => l.map fun b => ⟨.leaseArbiter, s.front.tick, s.front.hc, b⟩
  have drop : ∀ v : State, v.store.mode = s.store.mode → v.store.sealedCaptures = s.store.sealedCaptures →
      v.token = s.tokenWithout p → v.front = s.front → v.dropFromCaptures p = { v with
        store := { v.store with sealedCaptures := s.sealedAtEnd p r, mode := s.modeAtEnd r }
        journal := { v.journal with waiting := v.journal.waiting ++ ra }
        sessions := v.sessions.mapWith fun q x => x.map (Session.afterReclaim r q) } := by
    intro v h1 h2 h3 h4
    have h5 : v.capturesWithout p = s.capturesWithout p := by rw [State.capturesWithout, h2]; rfl
    have h6 : v.tokenWithout p = v.token := by
      rw [State.tokenWithout, h3]; unfold State.tokenWithout; split <;> simp_all
    have h7 : v.RetryAtEnd p r := by
      cases r <;> (unfold State.RetryAtEnd at h ⊢; rw [h6, h1, h2, h5, h3]; exact h)
    have h8 : v.sealedAtEnd p r = s.sealedAtEnd p r := by cases r <;> simp only [State.sealedAtEnd, h5]
    have h9 : v.modeAtEnd r = s.modeAtEnd r := by cases r <;> simp only [State.modeAtEnd, h1]
    rw [State.dropFromCaptures_eq v p r h6 h7, h8, h9, h4]
  have forfeit : ∀ v : State, v.lease = s.lease → v.queue = s.queue → v.front = s.front → v.config = s.config →
      v.forfeitLease p = { v with
        lease := (s.leaseWithout p).1, queue := (s.leaseWithout p).2
        journal := { v.journal with waiting := v.journal.waiting ++ la (s.leaseEntriesAtEnd p) }
        sessions := v.sessions.mapWith fun q x => x.map (Session.afterGrant (s.grantedAtEnd p) q) } := by
    intro v h1 h2 h3 h4
    have hg : v.grantedAtEnd p = s.grantedAtEnd p := by simp only [State.grantedAtEnd, h1, h2]
    have hl : v.leaseWithout p = s.leaseWithout p := by simp only [State.leaseWithout, h1, h2, h3, h4]
    have he : v.leaseEntriesAtEnd p = s.leaseEntriesAtEnd p := by simp only [State.leaseEntriesAtEnd, h1, hg]
    rw [State.forfeitLease_eq v p, hl, hg, he, h3]
  have fin : ∀ (t : State) ws l1 l2, s.leaseEntriesAtEnd p = l1 ++ l2 → ws = la l1 ++ ra ++ la l2 →
      t = { s.tornDown p r ws (s.draws + 1) with energy := s.energy } →
      ∃ ws l1 l2, s.leaseEntriesAtEnd p = l1 ++ l2
        ∧ ws.map (fun (a : Append) => (a.tick, a.hc, a.body)) =
            (l1 ++ reclaimBodies r ++ l2).map (fun b => (s.front.tick, s.front.hc, b))
        ∧ t.dropFromSnapshot p = s.tornDown p r ws (s.draws + 1) := by
    intro t ws l1 l2 h1 h2 h3
    refine ⟨ws, l1, l2, h1, ?_, ?_⟩
    · subst h2; simp [la, ra, List.map_append, Function.comp_def]
    · rw [h3, State.dropFromSnapshot_eq]; rfl
  have order1 : (u.forfeitLease p).dropFromCaptures p =
      { s.tornDown p r (la (s.leaseEntriesAtEnd p) ++ ra) (s.draws + 1) with energy := s.energy } := by
    rw [forfeit u rfl rfl rfl rfl, drop, PerPort.mapWith_mapWith]
    · simp [State.tornDown, u, List.append_assoc]
    all_goals rfl
  have order2 : (u.dropFromCaptures p).forfeitLease p =
      { s.tornDown p r (ra ++ la (s.leaseEntriesAtEnd p)) (s.draws + 1) with energy := s.energy } := by
    rw [drop u rfl rfl rfl rfl, forfeit, PerPort.mapWith_mapWith]
    · simp [State.tornDown, u, List.append_assoc, Session.afterGrant_afterReclaim]
    all_goals rfl
  rw [State.discardSession_eq]
  unfold State.tearDownBlocks
  change ∃ ws l1 l2, _ ∧ _ ∧ State.dropFromSnapshot (if Config.teardownOrder s.draws = 0 then (u.forfeitLease p).dropFromCaptures p
    else if Config.teardownOrder s.draws = 1 then (u.dropFromCaptures p).forfeitLease p
    else if u.holdsLease p then ((u.handNow .leaseArbiter (.leaseEvent .forfeited p)).dropFromCaptures p).passLease
    else (u.dropFromCaptures p).forfeitLease p) p = _
  split
  · exact fin _ _ (s.leaseEntriesAtEnd p) [] (by simp) (by simp [la]) order1
  split
  · exact fin _ _ [] (s.leaseEntriesAtEnd p) (by simp) (by simp [la]) order2
  split
  · rename_i hh
    obtain ⟨t, ht, hp⟩ : ∃ t, s.lease = some t ∧ t.holder = p := by
      have hh : s.holdsLease p = true := hh
      unfold State.holdsLease at hh
      cases hl : s.lease with
      | none => simp [hl] at hh
      | some t => exact ⟨t, rfl, by simpa [hl] using hh⟩
    let g := (s.grantedAtEnd p).toList.map fun w => EntryBody.leaseEvent .granted w
    have he : s.leaseEntriesAtEnd p = [.leaseEvent .forfeited p] ++ g := by simp [State.leaseEntriesAtEnd, ht, hp, g]
    refine fin _ _ [.leaseEvent .forfeited p] g he rfl ?_
    have pass : ∀ v : State, v.lease = s.lease → v.queue = s.queue → v.front = s.front → v.config = s.config →
        v.passLease = { v with
          lease := (s.leaseWithout p).1, queue := (s.leaseWithout p).2
          journal := { v.journal with waiting := v.journal.waiting ++ la g }
          sessions := v.sessions.mapWith fun q x => x.map (Session.afterGrant (s.grantedAtEnd p) q) } := by
      intro v h1 h2 h3 h4
      rcases State.passLease_cases v with ⟨hq', hv⟩ | ⟨w, rest, hq', hv⟩
      · have hq : s.queue = [] := h2.symm.trans hq'
        have hg : s.grantedAtEnd p = none := by simp [State.grantedAtEnd, ht, hq]
        rw [hv, PerPort.mapWith_self _ fun q y => by simp [Session.afterGrant, hg]]
        simp [State.leaseWithout, ht, hp, hq, hq', g, hg, la]
      · have hq : s.queue = w :: rest := h2.symm.trans hq'
        have hg : s.grantedAtEnd p = some w.host := by simp [State.grantedAtEnd, ht, hq, hp]
        rw [hv, hg, ← Session.afterGrant_set]
        simp [State.leaseWithout, ht, hp, hq, g, hg, la, State.handNow, State.hand, State.nowTick, State.nowHc, State.latch,
          State.onSession, State.newTenure, afterMs, h3, h4]
    rw [drop, pass]
    rotate_left
    all_goals first | rfl | skip
    rw [PerPort.mapWith_mapWith]
    simp [State.tornDown, u, la, List.append_assoc, Session.afterGrant_afterReclaim, State.handNow, State.hand, State.nowTick, State.nowHc]
  · exact fin _ _ [] (s.leaseEntriesAtEnd p) (by simp) (by simp [la]) order2

end Sys2Proof.Machine
end

