-- ==== Sys2Proof/Tests/Slice0.lean ====
section
/-! SUPPORT. Tests: the form of commands, the spec's worked figures one step at a time, and for each statement with hypotheses a witness
that meets them, clause by clause. Every expected value is the spec's own figure or worked from it by hand. -/

namespace Sys2Proof.Tests
open Sys2Proof Sys2Proof.Machine

/-! ### The form of commands -/

theorem test_badFrame_of_61_bytes_refused : (Instr.badFrame .a 1 0x15 (List.replicate 61 0) 0).wellFormed = false := by decide
theorem test_badFrame_of_60_bytes_accepted : (Instr.badFrame .a 1 0x15 (List.replicate 60 0) 0).wellFormed = true := by decide
theorem test_appendNote_of_61_bytes_refused : (Instr.appendNote .a 1 (List.replicate 61 0)).wellFormed = false := by decide
theorem test_defineReadSet_of_61_codes_refused : (Instr.defineReadSet .a 1 (List.replicate 61 1)).wellFormed = false := by decide
theorem test_lead_without_first_interval_refused : (Instr.leadPattern 0 1 1 1 none).wellFormed = false := by decide
theorem test_lead_without_second_interval_refused : (Instr.leadPattern 1 0 1 1 none).wellFormed = false := by decide
theorem test_lead_without_third_interval_refused : (Instr.leadPattern 1 1 0 1 none).wellFormed = false := by decide
theorem test_lead_without_fourth_interval_refused : (Instr.leadPattern 1 1 1 0 none).wellFormed = false := by decide
theorem test_lead_with_edge_at_once_refused : (Instr.leadPattern 1 1 1 1 (some 0)).wellFormed = false := by decide
theorem test_note_of_15_bytes_is_no_request : (Request.appendNote (List.replicate 15 0)).wellFormed = false := by decide
theorem test_read_set_of_13_codes_is_no_request : (Request.defineReadSet (List.replicate 13 1)).wellFormed = false := by decide

/-! ### States for the tests -/

/-- The state after a command. -/
def run (c : Instr) (s : State) : State := match exec c s with | .next t => t | _ => s

def sess : Session := Session.fresh 2 none
/-- Right after reset, with a session on port A. -/
def sA : State := State.reset.setSession .a (some sess)
/-- The same with the lease held by port A. -/
def leased (stage : Table) : State := { sA with lease := some { holder := .a, expiry := 5000, stage := stage } }
/-- The same with the lease held by port B. -/
def leasedB : State := { sA with lease := some { holder := .b, expiry := 5000, stage := Table.defaults } }

theorem ready (s : State) (p : Port) (h1 : s.pins.resetLow = false) (h2 : s.config.restartDue = none) (h3 : s.portC.sending = none) :
    s.readyFor p := ⟨h1, h2, fun _ => h3⟩

/-- An append that a block has handed. -/
def handedNote : Append := { source := .energyBlock, tick := 9, hc := 7, body := .creepChange .e0 .creep }
/-- A journal of the given length, whose oldest entry is a GAP. -/
def journalOf (n : Nat) : Journal :=
  { entries := (List.range n).map fun i =>
      { seq := BitVec.ofNat 32 (i + 1), tick := 0, hc := 0, body := .gap (PerClass.all 1) 0 0 }
    nextSeq := BitVec.ofNat 32 (n + 1), epoch := 1, tally := .empty, waiting := [handedNote] }
def withJournal (n : Nat) : State := { State.reset with journal := journalOf n }
/-- A summary with the given average P_A over 64 samples. -/
def summaryOf (pA : Int) : Summary := { Summary.zero with hc := 5, n := 64, pA := pA, iaRms := 100 }
def closeOf (pA : Int) : HandedClose := { summary := summaryOf pA, tick := 40 }
def accDefault : Accumulator := { value := 0, residue := 0, gate := .running, creepRun := 0, lastHc := 0 }
def accFault : Accumulator := { accDefault with gate := .fault }
/-- E0 with the given record, the other accumulators frozen, and a close handed. -/
def energyOne (r : Accumulator) (pA : Int) (s3 : EnergyCfg) : State :=
  { State.reset with energy := { State.reset.energy with
      acc := { e0 := r, e1 := accFault, e2 := accFault, e3 := accFault }, closes := [closeOf pA], s3 := s3 } }
/-- The default S3 with no engine bound. -/
def unbound : EnergyCfg := { energyDefaults with pulse := PerPulse.mk ⟨4, 1000, 40⟩ ⟨4, 1000, 40⟩ }
def frame0 : Frame := ⟨0, 0, 0⟩
def stamped : StampedFrame := ⟨frame0, 3, 2⟩
/-- A capture in slot 0 with the given frames. -/
def captureOf (id : W16) (slots : List SlotId) (frames : List Frame) : Capture :=
  { id := id, slots := slots, chainLimit := 2, pre := 0, firstTick := 0, firstHc := 0, firstTrigger := ⟨.xtrigIn, 0, 0⟩
    moreTriggers := [], extra := 0, continueFlag := false, flags := ⟨false, false, false⟩, holders := PerPort.all false
    frames := frames }
def withMode (m : StoreMode) (inbox : List CapEvent) : State :=
  { State.reset with store := { State.reset.store with mode := m, inbox := inbox } }
/-- The link of port A in a phase. -/
def linkIn (phase : TransactionPhase) : State :=
  { State.reset with links := State.reset.links.set .a { SyncLink.afterReset with phase := phase, receipt := [0x55, 7, 0x15] } }
def resp : Response := { bytes := [0xAA, 7, 0, 0, 0xF8], restartOk := false }

/-! ### The spec's worked figures -/

/-- 1.3: with `next_seq` 5 the oldest of a full journal is $FFFFFE84, at distance 384. -/
theorem test_distance_over_the_wrap : distance 5 0xFFFFFE84 = 384 := by decide
theorem test_sequence_skips_zero : seqSucc 0xFFFFFFFF = 1 := by decide
/-- 10.4: the two frames worked there. -/
theorem test_frame_of_journal_status : frameOf 7 .journalStatus = { tag := 7, code := 0x15, payload := [], check := 0xE3 } := by decide
theorem test_frame_of_read_entries : frameOf 8 (.readEntries 0x88) = { tag := 8, code := 0x12, payload := [0x88], check := 0x5C } := by
  decide
/-- R110: a 1150.0 W half-cycle moves 3 mWh and leaves 44800. -/
theorem test_residue_of_1150_watts :
    (run .energyClose (energyOne accDefault 11500 unbound)).energy.acc.e0 =
      { value := 3, residue := 44800, gate := .running, creepRun := 0, lastHc := 5 } := by decide
/-- R110: the four directions of a half-cycle that exports 460.0 W. -/
theorem test_directions_of_an_export :
    [EnergyDirection.imported, .exported, .net, .absolute].map (fun d =>
      let out := accDefault.count (d.counted (-4600 * 64)) 230400 5
      (out.2, out.1.residue)) = [(0, 0), (1, 64000), (-1, -64000), (1, 64000)] := by decide
/-- 3.4: S_A of 230.0 V and 5.00 A is 1150.0 VA. -/
theorem test_apparent_power : roundDiv ((2300 * 500 : Nat) : Int) 100 = 11500 := by decide
theorem test_halves_round_away_from_zero : roundDiv (-5) 2 = -3 ∧ roundDiv 5 2 = 3 := by decide
/-- 3.3: the wait limits. -/
theorem test_wait_limits : waitLimit frontDefaults .timeout = 96 ∧ waitLimit frontDefaults .interval = 64
    ∧ waitLimit { frontDefaults with nominal := 60 } .timeout = 84 ∧ waitLimit { frontDefaults with nominal := 60 } .interval = 52 := by
  decide
/-- R184: a frame of U 3250, IA −707 and IB −700, most significant byte first, two's complement. -/
theorem test_frame_bytes : Frame.bytes ⟨3250, -707, -700⟩ = [0x0C, 0xB2, 0xFD, 0x3D, 0xFD, 0x44] := by decide
/-- R183: wire sizes of the smallest entry, of a NOTE and of a SNAPSHOT. -/
theorem test_wire_sizes : [EntryBody.lineEvent .lost, .note .a (List.replicate 16 0), .snapshot 1 noHosts (PerAcc.all 0)].map
    (fun b => (Entry.mk 1 0 0 b).wireSize) = [15, 31, 41] := by decide
theorem test_catalogue_has_84_items : Item.all.length = 84 := by decide
theorem test_identity_skips_zero : idSucc 0xFFFF = 1 := by decide

/-! ### One step of a command -/

theorem test_tick_wraps :
    (run .tickCount { State.reset with front := { State.reset.front with tick := 0xFFFFFFFF } }).front.tick = 0 := by decide
theorem test_first_frame_is_no_crossing : (run (.frameTaken 0x8000 0 0) State.reset).front.opened.n = 1 := by decide
theorem test_open_session_answers :
    ((run (.openSession .a 9 0 0) State.reset).links.a.pending.map Response.bytes) =
      some [0xAA, 9, 0, 13, 0, 1, 0, 0, 0, 0, 0, 2, 0, 0, 0, 2, 0, 0xE4] := by decide
theorem test_second_open_refused :
    ((run (.openSession .a 9 0 0) sA).links.a.pending.map Response.bytes) = some [0xAA, 9, 0x12, 0, 0xE4] := by decide
theorem test_no_session_refused :
    ((run (.rewind .b 9) sA).links.b.pending.map Response.bytes) = some [0xAA, 9, 0x02, 0, 0xF4] := by decide
theorem test_bad_check_counted : (run (.badFrame .b 9 0x15 [] 0) sA).links.b.counters.checkFail = 1 := by decide
theorem test_read_entries_moves_cursor :
    ((run (.readEntries .a 1 0x08) { sA with sessions := sA.sessions.set .a (some { sess with cursor := 1, ackPoint := 1 }) }).session
      .a).map (fun x => (x.cursor, x.ackPoint)) = some (2, 1) := by decide
theorem test_auto_ack_moves_ack_point :
    ((run (.readEntries .a 1 0x88) { sA with sessions := sA.sessions.set .a (some { sess with cursor := 1, ackPoint := 1 }) }).session
      .a).map (fun x => (x.cursor, x.ackPoint)) = some (2, 2) := by decide
theorem test_ack_of_next_seq_refused :
    ((run (.ackEntries .a 1 2) sA).links.a.pending.map Response.bytes) = some [0xAA, 1, 0x0B, 0, 0xF3] := by decide
theorem test_subscription_keeps_system : ((run (.setSubscription .a 1 0x01) sA).session .a).map Session.mask = some 0x81 := by decide
theorem test_attention_on_system_entry :
    (run (.setAttention .a 1 0x01 1) { sA with sessions := sA.sessions.set .a (some { sess with cursor := 1, ackPoint := 1 }) }).attnLow.a
      = true := by decide
theorem test_note_stored : (run (.appendNote .a 1 (List.replicate 16 3)) sA).journal.nextSeq = 3 := by decide
theorem test_capture_now_starts : (run (.captureNow .a 1) sA).store.recording.map Capture.id = some 1 := by decide
theorem test_lease_taken : (run (.leaseTake .a 1 60 0) sA).lease.map Tenure.expiry = some 60000 := by decide
theorem test_lease_of_61_seconds_refused : (run (.leaseTake .a 1 61 0) sA).lease = none := by decide
theorem test_stage_write : ((run (.stageWrite .a 1 2 0 1 320) (leased Table.defaults)).lease.map fun t => t.stage.cap.pre) = some 320 := by
  decide
theorem test_stage_write_out_of_range :
    ((run (.stageWrite .a 1 2 0 1 321) (leased Table.defaults)).lease.map fun t => t.stage.cap.pre) = some 256 := by decide
theorem test_commit_raises_generation : (run (.commit .a 1) (leased Table.defaults)).config.generation = 1 := by decide
theorem test_commit_without_lease : (run (.commit .a 1) sA).config.generation = 0 := by decide
theorem test_restart_pends : (run (.restart .a 1 0) (leased Table.defaults)).config.restartDue = some 50 := by decide
theorem test_restart_with_old_generation : (run (.restart .a 1 1) (leased Table.defaults)).config.restartDue = none := by decide
theorem test_snapshot_joins : (run (.snapshot .a 1) { sA with energy := { sA.energy with
    pendingSnapshot := some ⟨7, noHosts.set .b true⟩ } }).energy.pendingSnapshot = some ⟨7, ⟨true, true, false⟩⟩ := by decide
theorem test_baseline_marked : ((run (.markBaseline .a 1 0x01) { sA with energy := { sA.energy with
    acc := sA.energy.acc.set .e0 { accDefault with value := 9 } } }).session .a).map (fun x => x.baselines.e0) = some 9 := by decide
theorem test_read_set_too_large : ((run (.defineReadSet .a 1 [0x14, 0x14, 0x14]) sA).session .a).map Session.readSet = some [] := by
  decide
theorem test_select_falls : (run (.selectFall .a) State.reset).links.a.phase = .first := by decide
theorem test_unfinished_request_is_cut :
    (run (.selectRise .a) { linkIn .request with pins := { Pins.idle with selLow := ⟨true, false⟩ } }).links.a.counters.cut = 1 := by decide
theorem test_length_byte_of_61 : (run (.requestByte .a 61) (linkIn .request)).links.a.counters.length = 1 := by decide
theorem test_fetch_without_response : (run (.fetchByte .a) (linkIn .fetch)).links.a.sdo = some 0xFF := by decide
/-- R166: 8 bits of 115200 bit/s last 69444 ns. -/
theorem test_lead_locks_rate : (run (.leadPattern 17361 17361 17361 17361 none) State.reset).portC.rateSpan = some 69444 := by decide
theorem test_uneven_lead_is_none : (run (.leadPattern 17361 17361 17361 12000 none) State.reset).portC.rateSpan = none := by decide
theorem test_break_unlocks :
    (run .lineBreak { State.reset with portC := { State.reset.portC with rateSpan := some 69444 } }).portC.rateSpan = none := by decide
theorem test_pin_reset_advances_epoch : (run .pinReset State.reset).journal.epoch = 2 := by decide
theorem test_under_reset_nothing_is_taken : (run .tickCount (run .pinReset State.reset)).front.tick = 0 := by decide
theorem test_word_spells_nothing : State.reset.withFetchWord 8 1 = State.reset := rfl

/-! ### Witnesses of the statements' hypotheses, in the statements' order -/

theorem wit_StepRunsFrontCommand : State.reset.pending = [] := rfl
theorem wit_LinesFollowCauses : ∃ t, exec .tickCount State.reset = .next t := ⟨_, rfl⟩
theorem wit_TickAndEpoch : (∃ t, exec .detectorClose State.reset = .next t) ∧ mayReset .detectorClose = false
    ∧ Instr.detectorClose ≠ .tickCount ∧ State.reset.pins.resetLow = false := ⟨⟨_, rfl⟩, rfl, by decide, rfl⟩

def restartPending : State := { State.reset with config := { State.reset.config with restartDue := some 0 } }
def resetHeld : State := { State.reset with pins := { Pins.idle with resetLow := true } }

theorem wit_PinResetAndRestart : State.reset.pins.resetLow = false
    ∧ (restartPending.pins.resetLow = false ∧ restartPending.config.restartDue = some 0
      ∧ reached restartPending.front.tick 0 = true)
    ∧ resetHeld.pins.resetLow = true := by decide

/-- An open half-cycle of n frames whose last sample was negative or not. -/
def opened (n : Nat) (negative : Option Bool) : State :=
  { State.reset with front := { State.reset.front with opened := { OpenHalfCycle.empty with n := n }, prevNegative := negative } }

/-- With no earlier frame; with 31 frames before a crossing; with 95 frames. -/
theorem wit_FrameJoins :
    (∀ s ∈ [opened 0 none, opened 31 (some true), opened 95 (some false)], s.pins.resetLow = false
      ∧ (s.front.prevNegative = some (!decide ((scaleFrame s.front.s0 ⟨1, 0, 0⟩).u.toInt < 0)) → s.front.opened.n < 32)
      ∧ s.front.opened.n < waitLimit s.front.s0 s.front.wait) := by decide
/-- A crossing at 32 frames; the wait limit of 96. -/
theorem wit_FrameCloses :
    (∀ s ∈ [opened 32 (some true), opened 96 none], s.pins.resetLow = false
      ∧ ((s.front.prevNegative == some (!decide ((scaleFrame s.front.s0 ⟨1, 0, 0⟩).u.toInt < 0)) && decide (32 ≤ s.front.opened.n)) = true
        ∨ waitLimit s.front.s0 s.front.wait ≤ s.front.opened.n)) := by decide
theorem wit_LineStateTable : LineState.lost ≠ .tracking ∧ (2 < 3) := by decide
theorem wit_RoundingIsNearest : 0 < 96 ∧ 65535 * 65535 * 96 ≤ 65535 * 65535 * 96 ∧ 0 < 230400 := by decide

/-! The journal: with room for one more entry, full with nobody's entry or a YIELD session's, and full with the HOLD session's. -/

theorem length_journalOf (n : Nat) : (journalOf n).entries.length = n := by simp [journalOf]

theorem wit_StoreWithRoom : (withJournal 383).pins.resetLow = false
    ∧ firstOf .energyBlock (withJournal 383).journal.waiting = some (handedNote, [])
    ∧ (withJournal 383).journal.tally.isEmpty = true ∧ (withJournal 383).journal.entries.length < 384 :=
  ⟨rfl, rfl, rfl, by rw [withJournal, length_journalOf]; decide⟩

def oldestGap : Entry := { seq := 1, tick := 0, hc := 0, body := .gap (PerClass.all 1) 0 0 }
def laterGaps : List Entry := (List.range 383).map fun i =>
  { seq := BitVec.ofNat 32 (i + 2), tick := 0, hc := 0, body := .gap (PerClass.all 1) 0 0 }
def fullJournal : Journal := { journalOf 0 with entries := oldestGap :: laterGaps, nextSeq := 385 }
def yielding : State := { State.reset with journal := fullJournal, sessions := ⟨some { sess with cursor := 1, ackPoint := 1 }, none, none⟩ }
def holding : State := { yielding with token := some .a }
theorem length_full : (oldestGap :: laterGaps).length = 384 := by simp [laterGaps]

theorem wit_EvictionMovesReaders : yielding.pins.resetLow = false
    ∧ firstOf .energyBlock yielding.journal.waiting = some (handedNote, []) ∧ yielding.journal.tally.isEmpty = true
    ∧ yielding.journal.entries = oldestGap :: laterGaps ∧ yielding.journal.entries.length = 384
    ∧ ∀ p x, yielding.token = some p → yielding.session p = some x → x.pinsEntry yielding.journal.nextSeq oldestGap = false :=
  ⟨rfl, rfl, rfl, rfl, length_full, fun p _x h _ => nomatch (show (none : Option Port) = some p from h)⟩
theorem wit_HoldBlocksTheJournal : holding.pins.resetLow = false
    ∧ firstOf .energyBlock holding.journal.waiting = some (handedNote, [])
    ∧ holding.journal.entries = oldestGap :: laterGaps ∧ holding.journal.entries.length = 384 ∧ holding.token = some .a
    ∧ holding.session .a = some { sess with cursor := 1, ackPoint := 1 }
    ∧ ({ sess with cursor := 1, ackPoint := 1 } : Session).pinsEntry holding.journal.nextSeq oldestGap = true :=
  ⟨rfl, rfl, rfl, length_full, rfl, rfl, by decide⟩
def tallied : State :=
  { withJournal 382 with journal := { journalOf 382 with tally := { LossTally.empty with counts := PerClass.all 1 } } }
theorem wit_GapBeforeTheEntry : tallied.pins.resetLow = false
    ∧ firstOf .energyBlock tallied.journal.waiting = some (handedNote, []) ∧ tallied.journal.tally.isEmpty = false
    ∧ tallied.journal.entries.length < 383 := ⟨rfl, rfl, rfl, by simp [tallied, journalOf]⟩
def secondGap : Entry := { oldestGap with seq := 2 }
/-- A tally that is not empty, an oldest entry and n GAPs after it, and port A's session at the oldest entry. -/
def tallying (n : Nat) (oldest : Entry) (token : Option Port) : State :=
  { yielding with
    token := token
    journal := { fullJournal with
      tally := tallied.journal.tally, nextSeq := BitVec.ofNat 32 (n + 2)
      entries := oldest :: secondGap :: (List.range (n - 1)).map fun i =>
        { seq := BitVec.ofNat 32 (i + 3), tick := 0, hc := 0, body := .gap (PerClass.all 1) 0 0 } } }
/-- An oldest entry whose class port A's session has not in its mask. -/
def oldestNote : Entry := { oldestGap with body := .note .b (List.replicate 16 0) }
/-- With 383 entries the oldest is pinned by a YIELD and by a HOLD session; with 384 both oldest are, and the second alone once the oldest,
which nobody pins, is gone. -/
theorem wit_GapBeforeTheEntry_full : (∀ n oldest token, 0 < n → (tallying n oldest token).pins.resetLow = false
      ∧ firstOf .energyBlock (tallying n oldest token).journal.waiting = some (handedNote, [])
      ∧ (tallying n oldest token).journal.tally.isEmpty = false ∧ (tallying n oldest token).journal.entries.length = n + 1
      ∧ (tallying n oldest token).journal.nextSeq = BitVec.ofNat 32 (n + 2) ∧ (tallying n oldest token).token = token
      ∧ (tallying n oldest token).session .a = some { sess with cursor := 1, ackPoint := 1 })
    ∧ (∀ token, ∃ es, (tallying 382 oldestGap token).journal.entries = oldestGap :: es)
    ∧ (∀ oldest token, ∃ es, (tallying 383 oldest token).journal.entries = oldest :: secondGap :: es)
    ∧ (let x : Session := { sess with cursor := 1, ackPoint := 1 }
      x.pinsEntry 385 oldestGap = true ∧ x.pinsEntry 385 oldestNote = false
      ∧ (x.passRemoved 385 oldestNote).pinsEntry 386 secondGap = true) := by
  refine ⟨fun n oldest token h => ⟨rfl, rfl, rfl, ?_, rfl, rfl, rfl⟩, fun token => ⟨_, rfl⟩, fun oldest token => ⟨_, rfl⟩,
    by decide, by decide, by decide⟩
  simp [tallying]; omega

theorem reset_journal_law : State.reset.journal.Law := by
  refine ⟨by decide, by decide, by decide, by decide⟩
theorem sA_readers_law : sA.ReadersLaw := by
  intro p x h
  cases p with
  | a => cases h; exact ⟨by decide, by decide, by decide, by decide, by decide⟩
  | b => cases h
  | c => cases h
theorem wit_JournalLawKept : State.reset.journal.Law ∧ ∃ t, step State.reset = .next t := ⟨reset_journal_law, _, rfl⟩
theorem wit_ReadersLawKept : sA.journal.Law ∧ sA.ReadersLaw ∧ ∃ t, step sA = .next t := ⟨reset_journal_law, sA_readers_law, _, rfl⟩
def sAHold : State := { sA with token := some .a }
theorem wit_HoldProtects : sAHold.journal.Law ∧ sAHold.ReadersLaw ∧ sAHold.token = some .a ∧ sAHold.session .a = some sess
    ∧ ∃ t, exec .tickCount sAHold = .next t ∧ t.token = some .a := ⟨reset_journal_law, sA_readers_law, rfl, rfl, _, rfl, rfl⟩
theorem sAHold_token_law : sAHold.TokenLaw := by intro p h; cases h; rfl
theorem leasedB_law : State.LeaseLaw { leasedB with sessions := ⟨some sess, some sess, none⟩, queue := [⟨.a, 5⟩] } := by
  refine ⟨?_, ?_, by decide, by decide, ?_⟩
  · intro t h; cases h; exact ⟨rfl, by decide⟩
  · intro h; cases h
  · intro w h; simp at h; subst h; rfl
theorem wit_SharedHoldersKept : ∃ s, s.TokenLaw ∧ s.LeaseLaw ∧ ∃ t, step s = .next t :=
  ⟨{ leasedB with sessions := ⟨some sess, some sess, none⟩, queue := [⟨.a, 5⟩], token := some .a },
    by intro p h; cases h; rfl, leasedB_law, _, rfl⟩
theorem wit_SlotLawKept : State.reset.store.SlotLaw ∧ ∃ t, step State.reset = .next t :=
  ⟨⟨by decide, (by intro c h; cases h), fun h => nomatch h⟩, _, rfl⟩
theorem wit_CountersBounded : State.reset.Bounded ∧ ∃ t, step State.reset = .next t := by
  refine ⟨⟨?_, by unfold LinkCounters.Bounded; decide, by decide, ?_, ?_, ?_, ?_, by decide⟩, _, rfl⟩
  · intro k; cases k <;> unfold LinkCounters.Bounded <;> decide
  · intro c; cases c <;> decide
  · intro p x h; cases p <;> cases h
  · intro d; cases d <;> unfold Detector.Bounded <;> decide
  · intro e; cases e <;> unfold PulseEngine.Bounded <;> decide

/-! Detectors: U_DIP under its default levels, onset below 2070 and released from 2116. -/

def dipCfg : DetCfg := { detDefaults.uDip with enable := 1 }
def dipIn (st : DetState) (n : Nat) : Detector := { Detector.starting dipCfg with state := st, run := n }
/-- 2069 is beyond, 2070 is not; 2116 is released, 2115 is not. -/
theorem wit_DetectorTable :
    (dipIn .idle 0).state = .idle ∧ beyond .uDip dipCfg 2070 = false ∧ beyond .uDip dipCfg 2069 = true
    ∧ released .uDip dipCfg 2115 = false ∧ released .uDip dipCfg 2116 = true ∧ (dipIn .quiet 0).state = .quiet
    ∧ (dipIn .onset 1).state = .onset ∧ (dipIn .active 0).state = .active ∧ (dipIn .release 1).state = .release := by decide
/-- The given U_DIP detector under a committed table that agrees with it, and a close with U_RMS 2000 handed. -/
def judging (x : Detector) (uRms : Nat) : State :=
  { State.reset with
    config := { State.reset.config with committed := { Table.defaults with det := { detDefaults with uDip := x.cfg } } }
    det := { State.reset.det with
      dets := { State.reset.det.dets with uDip := x }
      inbox := [{ summary := { Summary.zero with uRms := uRms, n := 64 }, tick := 4 }] } }
theorem wit_DetectorClose : (judging (dipIn .quiet 0) 2070).pins.resetLow = false
    ∧ (judging (dipIn .quiet 0) 2070).det.inbox = [⟨{ Summary.zero with uRms := 2070, n := 64 }, 4⟩]
    ∧ ∀ d, ((judging (dipIn .quiet 0) 2070).det.dets.get d).cfg = (judging (dipIn .quiet 0) 2070).config.committed.det.get d
      ∧ (judge d (d.input { Summary.zero with uRms := 2070, n := 64 }) 0 ((judging (dipIn .quiet 0) 2070).det.dets.get d)).2 = .nothing := by
  refine ⟨rfl, rfl, ?_⟩
  intro d; cases d <;> decide
/-- An onset count of 1 opens at 2069; the second half-cycle of a release run under count 2 closes at 2116. -/
theorem wit_EpisodesOpenAndClose :
    ∀ x ∈ [(dipIn .quiet 0, 2069, Judgement.opens), (dipIn .release 1, 2116, .closes)],
      (judging x.1 x.2.1).pins.resetLow = false
      ∧ (judging x.1 x.2.1).det.inbox = [⟨{ Summary.zero with uRms := x.2.1, n := 64 }, 4⟩]
      ∧ (∀ i, ((judging x.1 x.2.1).det.dets.get i).cfg = (judging x.1 x.2.1).config.committed.det.get i)
      ∧ (∀ i, i ≠ DetId.uDip →
        (judge i (i.input { Summary.zero with uRms := x.2.1, n := 64 }) 0 ((judging x.1 x.2.1).det.dets.get i)).2 = .nothing)
      ∧ (judge .uDip x.2.1 0 ((judging x.1 x.2.1).det.dets.get .uDip)).2 = x.2.2 := by
  intro x hx
  simp only [List.mem_cons, List.not_mem_nil, or_false] at hx
  rcases hx with rfl | rfl <;>
    refine ⟨rfl, rfl, fun i => by cases i <;> decide, fun i _ => by cases i <;> first | contradiction | decide, by decide⟩
def changed (x : Detector) (new : DetCfg) : State :=
  { judging x 0 with config := { State.reset.config with committed := { Table.defaults with det := { detDefaults with uDip := new } } } }
theorem wit_ChangedDetector :
    (∀ st ∈ [DetState.active, .release, .quiet, .onset],
      ((changed (dipIn st 1) detDefaults.uDip).det.dets.get .uDip).cfg
        ≠ (changed (dipIn st 1) detDefaults.uDip).config.committed.det.get .uDip
      ∧ (dipIn st 1).cfg.enable = 1 ∧ detDefaults.uDip.enable = 0 ∧ (dipIn st 1).state = st)
    ∧ detDefaults.uDip ≠ dipCfg
    ∧ ({ detDefaults.uDip with onset := 2000 } : DetCfg).enable = 0 ∧ ({ detDefaults.uDip with onset := 2000 } : DetCfg) ≠ detDefaults.uDip
    ∧ ({ dipCfg with onset := 2000 } : DetCfg) ≠ dipCfg ∧ levelsOrCountsDiffer dipCfg { dipCfg with onset := 2000 } = true
    ∧ ({ dipCfg with trigOnset := 0 } : DetCfg) ≠ dipCfg ∧ levelsOrCountsDiffer dipCfg { dipCfg with trigOnset := 0 } = false
    ∧ (∀ st ∈ [DetState.active, .release, .quiet, .onset],
      (changed (dipIn st 1) detDefaults.uDip).pins.resetLow = false
      ∧ (changed (dipIn st 1) detDefaults.uDip).det.inbox = [⟨{ Summary.zero with uRms := 0, n := 64 }, 4⟩]) := by decide
/-- A cut at the close, and a detector just enabled, which that close judges. -/
theorem test_cut_at_the_close :
    ((run .detectorClose (changed (dipIn .active 1) detDefaults.uDip)).det.dets.uDip.state,
      (run .detectorClose (changed (dipIn .active 1) detDefaults.uDip)).journal.waiting.length) = (.idle, 1) := by decide

/-! The Capture Store. -/

theorem wit_StoreTakesFrame :
    (∀ m ∈ [StoreMode.live 0 [], .live 0 (List.replicate 1024 frame0), .post (captureOf 1 [0] (List.replicate 1022 frame0)), .disarmed,
        .starved], (withMode m [.frame stamped]).pins.resetLow = false
      ∧ firstFrame (withMode m [.frame stamped]).store.inbox = some (stamped, []))
    ∧ (List.replicate 1024 frame0).length ≤ 1024 ∧ (List.replicate 1022 frame0).length + 1 < [(0 : SlotId)].length * 1024 := by
  exact ⟨fun m _ => ⟨rfl, rfl⟩, by rw [List.length_replicate], by rw [List.length_replicate]; decide⟩
/-- One frame short of a full part in slot 0, so that slot 1 is the lowest free. -/
def almostFull (continues : Bool) (armed : W16) : State :=
  let s := withMode (.post { captureOf 1 [0] (List.replicate 1023 frame0) with continueFlag := continues }) [.frame stamped]
  { s with store := { s.store with s2 := { capDefaults with armed := armed } } }
theorem wit_PartFull : ∀ continues armed, (almostFull continues armed).pins.resetLow = false
    ∧ firstFrame (almostFull continues armed).store.inbox = some (stamped, [])
    ∧ (∃ c, (almostFull continues armed).store.mode = .post c ∧ c.continueFlag = continues
      ∧ c.frames.length + 1 = c.slots.length * 1024
      ∧ (1 : SlotId) ∉ (almostFull continues armed).store.sealedCaptures.flatMap Capture.slots ++ c.slots
      ∧ ∀ k < (1 : SlotId), k ∈ (almostFull continues armed).store.sealedCaptures.flatMap Capture.slots ++ c.slots)
    ∧ (almostFull continues armed).store.s2.armed = armed := by
  intro continues armed
  refine ⟨rfl, rfl, ⟨_, rfl, rfl, ?_, ?_, ?_⟩, rfl⟩
  · simp only [captureOf, List.length_replicate]; decide
  · show (1 : SlotId) ∉ [(0 : SlotId)]; decide
  · show ∀ k < (1 : SlotId), k ∈ [(0 : SlotId)]; decide
/-- The same recording with slots 1 to 7 in one sealed capture with the given holders, and sessions on all ports that subscribe to
CAPTURE; the HOLD token as given. -/
def lastSlot (continues : Bool) (holders : HostSet) (token : Option Port) : State :=
  let s := almostFull continues 1
  { s with
    store := { s.store with sealedCaptures := [{ captureOf 9 [1, 2, 3, 4, 5, 6, 7] [] with holders := holders }] }
    sessions := PerPort.all (some { sess with mask := 0xFF }), token := token }
/-- With no FREE slot: a capture nobody holds; one that a YIELD session holds; one that the HOLD session holds, with the capture that
completes not held by it, and held by it. -/
theorem wit_PartFull_without_a_free_slot : (∀ continues holders token,
      firstFrame (lastSlot continues holders token).store.inbox = some (stamped, [])
      ∧ (lastSlot continues holders token).store.s2.armed = 1
      ∧ (∀ k : SlotId, k ∈ (lastSlot continues holders token).store.sealedCaptures.flatMap Capture.slots ++ [0])
      ∧ (lastSlot continues holders token).captureHolders = PerPort.all true)
    ∧ (captureOf 9 [1, 2, 3, 4, 5, 6, 7] []).Reclaimed none [captureOf 9 [1, 2, 3, 4, 5, 6, 7] []]
    ∧ (let c := { captureOf 9 [1, 2, 3, 4, 5, 6, 7] [] with holders := ⟨true, false, false⟩ }
      c.Reclaimed (some .b) [c] ∧ c.HeldByHold (some .a)
      ∧ ({ captureOf 1 [0] [] with holders := ⟨false, true, false⟩ } : Capture).Reclaimed (some .a)
          [c, { captureOf 1 [0] [] with holders := ⟨false, true, false⟩ }])
    ∧ (∀ c ∈ [captureOf 9 [1] [], captureOf 1 [0] []], ({ c with holders := PerPort.all true } : Capture).HeldByHold (some .a))
    ∧ IsLowest [1, 2, 3, 4, 5, 6, 7] 1 ∧ IsLowest [0] 0 := by
  refine ⟨fun continues holders token => ⟨rfl, rfl, ?_, rfl⟩, ⟨[], [], rfl, .inl ⟨rfl, by decide⟩⟩,
    ⟨⟨[], [], rfl, .inr ⟨by decide, ?_, by simp⟩⟩, ⟨.a, rfl, rfl⟩, ⟨[_], [], rfl, .inr ⟨by decide, ?_, ?_⟩⟩⟩,
    fun c _ => ⟨.a, rfl, rfl⟩, ⟨by decide, by decide⟩, ⟨by decide, by decide⟩⟩
  · show ∀ k : SlotId, k ∈ [(1 : SlotId), 2, 3, 4, 5, 6, 7, 0]; decide
  · rintro ⟨p, h, h'⟩; cases h; cases h'
  · rintro ⟨p, h, h'⟩; cases h; cases h'
  · intro b hb; cases List.mem_singleton.mp hb; exact ⟨.a, rfl, rfl⟩
/-- A trigger of XTRIG_IN between two detector triggers of the close with hc 3, after one frame stamped with the given hc: 2 if it may
have made the close, 3 if it is a later one. -/
def amongTriggers (m : StoreMode) (hc : W32) : State :=
  withMode m [.frame { stamped with hc := hc }, .trigger (.onset .uDip) 3 3, .trigger .xtrigIn 3 3, .trigger (.onset .uSwell) 3 3]
/-- XTRIG_IN alone while the frame waits, either it or the first detector trigger after, and nothing where nothing waits. -/
theorem wit_TriggerByStoreState : ∀ m ∈ [StoreMode.live 0 [], .post (captureOf 1 [0] []), .disarmed, .starved],
    (∀ hc, (amongTriggers m hc).pins.resetLow = false
      ∧ ∃ rest, MayTake (amongTriggers m hc).store.inbox ⟨.xtrigIn, 3, 3⟩ rest)
    ∧ (∃ rest, MayTake (amongTriggers m 3).store.inbox ⟨.onset .uDip, 3, 3⟩ rest)
    ∧ (∀ rest, ¬ MayTake (amongTriggers m 2).store.inbox ⟨.onset .uDip, 3, 3⟩ rest)
    ∧ (withMode m []).pins.resetLow = false ∧ ∀ g rest, ¬ MayTake (withMode m []).store.inbox g rest := by
  have first : ∀ inbox origin g rest, firstTrigger origin inbox = some (g, rest) → MayTake inbox g rest :=
    fun _ _ _ _ h => (firstTrigger_iff.mp h).1
  refine fun m _ => ⟨fun hc => ⟨rfl, _, first _ .xtrigIn _ _ rfl⟩, ⟨_, first _ .detectorBank _ _ rfl⟩, fun rest h => ?_, rfl, ?_⟩
  · have := firstTrigger_iff.mpr ⟨h, rfl⟩
    cases this
  · rintro g rest ⟨before, after, h, -⟩
    cases before <;> cases h
/-- R44: the detector triggers wait for the frame of their close; R91: XTRIG_IN does not. -/
theorem test_xtrig_before_an_older_frame :
    ((run .captureTrigger (amongTriggers .disarmed 2)).journal.waiting.map Append.body,
      (run .captureTrigger (amongTriggers .disarmed 2)).store.inbox.length) = ([.captureMissed .xtrigIn .disarmed], 3) := by decide
/-- R91: XTRIG_IN or the first detector trigger next, and then either of XTRIG_IN and the second one; R73: the second not first. -/
theorem test_xtrig_among_detector_triggers :
    (nextTriggers (amongTriggers .disarmed 3).store.inbox).map (·.1.source) = [.onset .uDip, .xtrigIn]
    ∧ (nextTriggers [.trigger .xtrigIn 3 3, .trigger (.onset .uSwell) 3 3]).map (·.1.source) = [.onset .uSwell, .xtrigIn] := by decide
/-- Two sealed captures in all eight slots, the first held by port A. -/
def eightHeld : List Capture := [{ captureOf 2 [0, 1, 2, 3] [] with holders := ⟨true, false, false⟩ }, captureOf 1 [4, 5, 6, 7] []]
def starving : State := { State.reset with store := { State.reset.store with
  mode := .starved, sealedCaptures := eightHeld, inbox := [.tokenFree] } }
def reconfigured (m : StoreMode) (old new : W16) : State :=
  { State.reset with store := { State.reset.store with
    mode := m, s2 := { capDefaults with armed := old }, inbox := [.config { capDefaults with armed := new }] } }
theorem wit_StoreReconfigured :
    (∀ m old new, (reconfigured m old new).pins.resetLow = false
      ∧ firstConfig (reconfigured m old new).store.inbox = some ({ capDefaults with armed := new }, [])
      ∧ (reconfigured m old new).store.mode = m ∧ (reconfigured m old new).store.s2.armed = old
      ∧ (0 : SlotId) ∉ (reconfigured m old new).store.sealedCaptures.flatMap Capture.slots)
    ∧ starving.pins.resetLow = false ∧ firstTokenFree starving.store.inbox = some [] ∧ starving.store.mode = .starved
    ∧ starving.store.sealedCaptures = eightHeld.take 1 ++ captureOf 1 [4, 5, 6, 7] [] :: []
    ∧ (∀ k : SlotId, k ∈ starving.store.sealedCaptures.flatMap Capture.slots)
    ∧ (∀ b ∈ eightHeld.take 1, b.holders ≠ PerPort.all false ∧ b.id ≠ 1)
    ∧ (4 : SlotId) ∈ [(4 : SlotId), 5, 6, 7] ∧ ∀ k ∈ [(4 : SlotId), 5, 6, 7], 4 ≤ k := by
  refine ⟨fun m old new => ⟨rfl, rfl, rfl, rfl, ?_⟩, rfl, rfl, rfl, rfl, by decide, by decide, by decide, by decide⟩
  show (0 : SlotId) ∉ []
  decide
/-- All eight slots sealed in captures that sessions hold, the first that of port A: an arming DISARMED store and a STARVED one whose
pre frames change; with the token at A the second capture is reclaimed, with the token at nobody the first, and with A among the holders of
both none. -/
def withoutSlot (m : StoreMode) (old new : CapCfg) (token : Option Port) (second : HostSet) : State :=
  { State.reset with
    token := token
    store := { State.reset.store with
      mode := m, s2 := old, inbox := [.config new, .tokenFree]
      sealedCaptures :=
        [{ captureOf 2 [0, 1, 2, 3] [] with holders := ⟨true, false, false⟩ }, { captureOf 1 [4, 5, 6, 7] [] with holders := second }] } }
theorem wit_StoreReconfigured_without_a_free_slot : (∀ m old new token second,
      firstConfig (withoutSlot m old new token second).store.inbox = some (new, [.tokenFree])
      ∧ firstTokenFree (withoutSlot m old new token second).store.inbox = some [.config new]
      ∧ (withoutSlot m old new token second).store.mode = m ∧ (withoutSlot m old new token second).store.s2 = old
      ∧ ∀ k : SlotId, k ∈ (withoutSlot m old new token second).store.sealedCaptures.flatMap Capture.slots)
    ∧ ({ capDefaults with pre := 64 } : CapCfg) ≠ capDefaults ∧ ({ capDefaults with pre := 64 } : CapCfg).armed = 1
    ∧ (∀ old new, ({ captureOf 1 [4, 5, 6, 7] [] with holders := ⟨false, true, false⟩ } : Capture).Reclaimed (some .a)
        (withoutSlot .starved old new (some .a) ⟨false, true, false⟩).store.sealedCaptures)
    ∧ (∀ old new, ({ captureOf 2 [0, 1, 2, 3] [] with holders := ⟨true, false, false⟩ } : Capture).Reclaimed none
        (withoutSlot .starved old new none ⟨true, true, false⟩).store.sealedCaptures)
    ∧ (∀ old new, ∀ b ∈ (withoutSlot .starved old new (some .a) ⟨true, true, false⟩).store.sealedCaptures, b.HeldByHold (some .a))
    ∧ IsLowest [4, 5, 6, 7] 4 ∧ IsLowest [0, 1, 2, 3] 0 := by
  refine ⟨fun m old new token second => ⟨rfl, rfl, rfl, rfl, ?_⟩, by decide, by decide,
    fun old new => ⟨[_], [], rfl, .inr ⟨?_, ?_, ?_⟩⟩, fun old new => ⟨[], [_], rfl, .inr ⟨?_, ?_, by simp⟩⟩, ?_,
    ⟨by decide, by decide⟩, ⟨by decide, by decide⟩⟩
  · show ∀ k : SlotId, k ∈ [(0 : SlotId), 1, 2, 3, 4, 5, 6, 7]; decide
  · intro b hb; simp [withoutSlot] at hb; rcases hb with rfl | rfl <;> decide
  · rintro ⟨p, h, h'⟩; cases h; cases h'
  · intro b hb; cases List.mem_singleton.mp hb; exact ⟨.a, rfl, rfl⟩
  · intro b hb; simp [withoutSlot] at hb; rcases hb with rfl | rfl <;> decide
  · rintro ⟨p, h, h'⟩; cases h
  · intro old new b hb; simp [withoutSlot] at hb; rcases hb with rfl | rfl <;> exact ⟨.a, rfl, rfl⟩
theorem wit_CrossTrigger : State.reset.pins.resetLow = false ∧ State.reset.store.xtrigLevel ≠ true
    ∧ (∃ s : State, s.pins.resetLow = false ∧ s.store.xtrigOut = some 0 ∧ reached s.front.tick 0 = true) :=
  ⟨rfl, by decide, { State.reset with store := { State.reset.store with xtrigOut := some 0 } }, rfl, rfl, by decide⟩

/-! The Energy Block. The default creep level is 20 and the creep count 8. -/

theorem wit_EnergyCloseCounts :
    (∃ s : State, s.energy.closes = [closeOf 20] ∧ (∀ a, (s.energy.acc.get a).gate = .running)
      ∧ (∀ a, EnergySource.ofCode (s.energy.s3.acc.get a).source = .time
          ∨ (s.energy.s3.acc.get a).creepLevel.toNat ≤ ((EnergySource.ofCode (s.energy.s3.acc.get a).source).average (summaryOf 20)).natAbs)
      ∧ (∀ e, boundAcc (s.energy.s3.pulse.get e).binding = none) ∧ s.energy.pendingSnapshot = none)
    ∧ (∃ s : State, s.energy.closes = [closeOf 0] ∧ (∀ a, (s.energy.acc.get a).gate = .fault)
      ∧ s.energy.pendingSnapshot = some ⟨1, noHosts⟩)
    ∧ (∃ s : State, s.energy.closes = [closeOf 20] ∧ (∀ a, (s.energy.acc.get a).gate = .running)
      ∧ (∀ a, EnergySource.ofCode (s.energy.s3.acc.get a).source = .time
          ∨ (s.energy.s3.acc.get a).creepLevel.toNat ≤ ((EnergySource.ofCode (s.energy.s3.acc.get a).source).average (summaryOf 20)).natAbs)
      ∧ (∀ e, boundAcc (s.energy.s3.pulse.get e).binding = none) ∧ s.energy.pendingSnapshot = some ⟨1, noHosts⟩) := by
  refine ⟨⟨{ State.reset with energy := { State.reset.energy with
      closes := [closeOf 20], s3 := { unbound with acc := { unbound.acc with e2 := { unbound.acc.e2 with creepLevel := 0 } } } } },
      rfl, ?_, ?_, ?_, rfl⟩,
    ⟨{ State.reset with energy := { State.reset.energy with
      closes := [closeOf 0], acc := PerAcc.all accFault, pendingSnapshot := some ⟨1, noHosts⟩ } }, rfl, ?_, rfl⟩,
    ⟨{ State.reset with energy := { State.reset.energy with
      closes := [closeOf 20], s3 := { unbound with acc := { unbound.acc with e2 := { unbound.acc.e2 with creepLevel := 0 } } }
      pendingSnapshot := some ⟨1, noHosts⟩ } },
      rfl, ?_, ?_, ?_, rfl⟩⟩
  · intro a; cases a <;> rfl
  · intro a; cases a <;> decide
  · intro e; cases e <;> decide
  · intro a; cases a <;> rfl
  · intro a; cases a <;> rfl
  · intro a; cases a <;> decide
  · intro e; cases e <;> decide
/-- An average of 20 is not low and one of 19 is, with the run at 0 and at 7 of 8, and in each gate, beside accumulators that count. -/
def energyBeside (r : Accumulator) (pA : Int) : State :=
  { State.reset with energy := { State.reset.energy with acc := PerAcc.mk r accDefault accDefault accDefault, closes := [closeOf pA] } }
theorem wit_CreepGate :
    (∀ r pA, (energyBeside r pA).pins.resetLow = false ∧ (energyBeside r pA).energy.closes = [closeOf pA]
      ∧ (energyBeside r pA).energy.acc.get .e0 = r ∧ (energyBeside r pA).energy.s3 = energyDefaults)
    ∧ EnergySource.ofCode energyDefaults.acc.e0.source ≠ .time
    ∧ ((summaryOf 19).pA.natAbs < energyDefaults.acc.e0.creepLevel.toNat)
    ∧ ¬ ((summaryOf 20).pA.natAbs < energyDefaults.acc.e0.creepLevel.toNat)
    ∧ accDefault.creepRun + 1 < energyDefaults.acc.e0.creepCount.toNat ∧ energyDefaults.acc.e0.creepCount.toNat ≤ 7 + 1
    ∧ ({ accDefault with gate := .creep } : Accumulator).gate = .creep ∧ accFault.gate = .fault := by
  refine ⟨fun r pA => ⟨rfl, rfl, rfl, rfl⟩, by decide, by decide, by decide, by decide, by decide, by decide, by decide⟩
theorem test_creep_beside_counting :
    (run .energyClose (energyBeside { accDefault with creepRun := 7 } 19)).energy.acc.e0.gate = .creep := by decide
/-- Both engines bound to E0, with the given records. -/
def engines (x y : PulseEngine) : State :=
  let s := energyBeside accDefault 3600
  { s with energy := { s.energy with s3 := { energyDefaults with pulse := PerPulse.mk ⟨0, 1, 40⟩ ⟨0, 1, 40⟩ }, engines := PerPulse.mk x y } }
/-- K 1 and one quantum, so 1, 15, 16 and 17 pulses are wanted with 0, 14, 15 and 16 pending; and with K 2 none from residue 0. -/
theorem wit_PulsesOwedAndPhases :
    (∀ x y, (engines x y).pins.resetLow = false ∧ (engines x y).energy.closes = [closeOf 3600]
      ∧ (∀ e, 1 ≤ ((engines x y).energy.s3.pulse.get e).k.toNat)
      ∧ (∀ e, boundAcc ((engines x y).energy.s3.pulse.get e).binding = some .e0)
      ∧ (engines x y).energy.engines = PerPulse.mk x y ∧ ((engines x y).energy.acc.get .e0).gate = .running)
    ∧ (energyDefaults.acc.e0.creepLevel.toNat ≤ (3600 : Int).natAbs) ∧ ((3600 * 64 : Int).tdiv 230400).natAbs = 1
    ∧ 16 + (0 + 1) / 1 = 17 ∧ 0 + (0 + 1) / 2 = 0
    ∧ reached 0 0 = true := by
  refine ⟨fun x y => ⟨rfl, rfl, ?_, ?_, rfl, rfl⟩, by decide, by decide, by decide, by decide, by decide⟩
  · intro e; cases e <;> exact Nat.le_refl 1
  · intro e; cases e <;> rfl
theorem test_both_engines_start :
    (run .energyClose (engines ⟨0, 0, 0, .idle⟩ ⟨0, 15, 0, .gap 40 7⟩)).energy.engines
      = PerPulse.mk ⟨0, 0, 0, .high 40 40⟩ ⟨0, 15, 1, .gap 40 7⟩ := by decide
theorem wit_EnergyConfigAndFault :
    (∃ s : State, s.pins.resetLow = false ∧ s.energy.handed = [.fault])
    ∧ (∀ phase, (engines ⟨0, 0, 0, phase⟩ ⟨0, 0, 0, .idle⟩).pins.resetLow = false
      ∧ ((engines ⟨0, 0, 0, phase⟩ ⟨0, 0, 0, .idle⟩).energy.engines.get .p0).phase = phase
      ∧ ((engines ⟨0, 0, 0, phase⟩ ⟨0, 0, 0, .idle⟩).energy.engines.get .p0).pending = 0
      ∧ reached (engines ⟨0, 0, 0, phase⟩ ⟨0, 0, 0, .idle⟩).front.tick 0 = true)
    ∧ ∃ s : State, s.pins.resetLow = false ∧ s.energy.handed = [.config unbound] ∧ s.energy.s3 = energyDefaults :=
  ⟨⟨{ State.reset with energy := { State.reset.energy with handed := [.fault] } }, rfl, rfl⟩, fun _ => ⟨rfl, rfl, rfl, (by decide : reached 0 0 = true)⟩,
    { State.reset with energy := { State.reset.energy with handed := [.config unbound] } }, rfl, rfl, rfl⟩

/-! The lease and the configuration. -/

theorem ready_sA : sA.readyFor .a := ready _ _ rfl rfl rfl
theorem ready_leased (stage : Table) : (leased stage).readyFor .a ∧ (leased stage).session .a = some sess := ⟨ready _ _ rfl rfl rfl, rfl⟩
def queuedA : State := { leasedB with queue := [⟨.c, 1⟩, ⟨.a, 60⟩] }
theorem wit_LeaseTaken : (sA.readyFor .a ∧ sA.session .a = some sess ∧ sA.lease = none)
    ∧ (∃ t, (leased Table.defaults).lease = some t ∧ t.holder = .a)
    ∧ (leasedB.readyFor .a ∧ leasedB.session .a = some sess ∧ (∃ t, leasedB.lease = some t ∧ t.holder ≠ .a)
      ∧ ∀ w ∈ leasedB.queue, w.host ≠ Port.a)
    ∧ (queuedA.readyFor .a ∧ queuedA.session .a = some sess ∧ (∃ t, queuedA.lease = some t ∧ t.holder ≠ .a)
      ∧ queuedA.queue = [⟨.c, 1⟩] ++ ⟨.a, 60⟩ :: [] ∧ ∀ v ∈ ([⟨.c, 1⟩] : List Waiter), v.host ≠ Port.a)
    ∧ 1 ≤ (1 : Byte).toNat ∧ (60 : Byte).toNat ≤ 60 ∧ ¬ (61 : Byte).toNat ≤ 60 ∧ (1 : Byte).toNat ≤ 1 :=
  ⟨⟨ready_sA, rfl, rfl⟩, ⟨_, rfl, rfl⟩, ⟨ready _ _ rfl rfl rfl, rfl, ⟨_, rfl, by decide⟩, by decide⟩,
    ⟨ready _ _ rfl rfl rfl, rfl, ⟨_, rfl, by decide⟩, rfl, by decide⟩, by decide, by decide, by decide, by decide⟩
theorem wit_LeaseEnds :
    ((leased Table.defaults).readyFor .a ∧ (leased Table.defaults).session .a = some sess ∧ (leased Table.defaults).queue = []
      ∧ ∃ t, (leased Table.defaults).lease = some t ∧ t.holder = .a)
    ∧ (∃ s : State, s.readyFor .a ∧ (∃ t, s.lease = some t ∧ t.holder = .a) ∧ s.queue = [⟨.b, 5⟩])
    ∧ (queuedA.readyFor .a ∧ (∀ t, queuedA.lease = some t → t.holder ≠ .a) ∧ ∃ w ∈ queuedA.queue, w.host = Port.a)
    ∧ ((∀ t, leasedB.lease = some t → t.holder ≠ .a) ∧ ∀ w ∈ leasedB.queue, w.host ≠ Port.a)
    ∧ ∃ s : State, s.pins.resetLow = false ∧ (∃ t, s.lease = some t ∧ reached s.front.tick t.expiry = true) ∧ s.queue = [] :=
  ⟨⟨(ready_leased _).1, rfl, rfl, _, rfl, rfl⟩,
    ⟨{ leased Table.defaults with queue := [⟨.b, 5⟩] }, ready _ _ rfl rfl rfl, ⟨_, rfl, rfl⟩, rfl⟩,
    ⟨ready _ _ rfl rfl rfl, by intro t h; cases h; decide, ⟨.a, 60⟩, by decide, rfl⟩,
    ⟨by intro t h; cases h; decide, by decide⟩,
    { leased Table.defaults with front := { State.reset.front with tick := 5000 } }, rfl, ⟨_, rfl, by decide⟩, rfl⟩
theorem wit_StageRequests : (leased Table.defaults).readyFor .a ∧ (leased Table.defaults).session .a = some sess
    ∧ (∃ t, (leased Table.defaults).lease = some t ∧ t.holder = .a)
    ∧ (Item.cap .pre).inRange 64 = true ∧ (Item.cap .pre).inRange 960 = true ∧ (Item.cap .pre).inRange 961 = false
    ∧ Item.named 2 0 0xFF ≠ [] ∧ Item.named 4 2 2 ≠ [] ∧ Item.named 4 1 2 = [] ∧ (∀ i : Item, ¬ (i.sectionNumber = 5 ∧ i.record = 0)) :=
  ⟨(ready_leased _).1, rfl, ⟨_, rfl, rfl⟩, by decide, by decide, by decide, by decide, by decide, by decide, fun i => by cases i <;> simp [Item.sectionNumber]⟩
/-- With the lease FREE, and with port B its holder, port A's session may send the requests of check 6. -/
theorem without_lease : (sA.readyFor .a ∧ sA.session .a = some sess ∧ ∀ t, sA.lease = some t → t.holder ≠ Port.a)
    ∧ (leasedB.readyFor .a ∧ leasedB.session .a = some sess ∧ ∀ t, leasedB.lease = some t → t.holder ≠ Port.a) :=
  ⟨⟨ready_sA, rfl, fun _ h => (nomatch h)⟩, ready _ _ rfl rfl rfl, rfl, by intro t h; cases h; decide⟩
theorem wit_StageRequests_refused :
    ((sA.readyFor .a ∧ ∀ t, sA.lease = some t → t.holder ≠ Port.a) ∧ leasedB.readyFor .a ∧ ∀ t, leasedB.lease = some t → t.holder ≠ Port.a)
    ∧ (∀ i : Item, ¬ (i.sectionNumber = 5 ∧ i.record = 0 ∧ i.field = 0)) ∧ (∀ i : Item, ¬ (i.sectionNumber = 2 ∧ i.record = 0 ∧ i.field = 5))
    ∧ (Item.cap .pre).inRange 0 = false ∧ (Item.cap .pre).inRange 1024 = false ∧ Item.named 5 0 0 = [] ∧ Item.named 2 0 5 = []
    ∧ Item.named 4 3 0xFF = [] ∧ (0xFE : Byte) ≠ 0xFF :=
  ⟨⟨⟨ready_sA, without_lease.1.2.2⟩, without_lease.2.1, without_lease.2.2.2⟩, fun i => by cases i <;> simp [Item.sectionNumber],
    fun i => by
      cases i with
      | cap f => cases f <;> decide
      | _ => simp [Item.sectionNumber], by decide, by decide, by decide, by decide, by decide, by decide⟩
theorem wit_CommitCarriedOut :
    ((leased Table.defaults).readyFor .a ∧ (leased Table.defaults).session .a = some sess
      ∧ validateStage (leased Table.defaults).token (leased Table.defaults).config.committed Table.defaults = none
      ∧ (leased Table.defaults).journal.waiting = [] ∧ (leased Table.defaults).journal.tally.isEmpty = true
      ∧ (leased Table.defaults).journal.entries.length < 384)
    ∧ validateStage none Table.defaults (Table.defaults.set (.cap .pre) 65) = some (.cap .pre, .range)
    ∧ validateStage none (Table.defaults.set (.acc .e0 .lock) 1) Table.defaults = some (.acc .e0 .lock, .lock) :=
  ⟨⟨(ready_leased _).1, rfl, by decide, rfl, rfl, by decide⟩, by decide, by decide⟩
theorem wit_CommitCarriedOut_refused :
    (sA.readyFor .a ∧ sA.session .a = some sess ∧ ∀ t, sA.lease = some t → t.holder ≠ Port.a)
    ∧ (leasedB.readyFor .a ∧ leasedB.session .a = some sess ∧ ∀ t, leasedB.lease = some t → t.holder ≠ Port.a) := without_lease
def scrubbing (code : W16) : State := { State.reset with
  front := { State.reset.front with tick := 100 }, config := { State.reset.config with code := code } }
theorem wit_IntegrityScrub : (∀ code, reached (scrubbing code).front.tick (scrubbing code).config.nextScrub = true ∧ (scrubbing code).config.fault = false)
    ∧ (scrubbing (Table.defaults.code + 1)).config.committed.code ≠ (scrubbing (Table.defaults.code + 1)).config.code
    ∧ (scrubbing Table.defaults.code).config.committed.code = (scrubbing Table.defaults.code).config.code :=
  ⟨fun _ => ⟨(by decide : reached 100 State.reset.config.nextScrub = true), rfl⟩, by
    change Table.defaults.code ≠ Table.defaults.code + 1
    generalize Table.defaults.code = c
    bv_omega, rfl⟩
theorem wit_RestartAndClearTally : (leased Table.defaults).readyFor .a ∧ (leased Table.defaults).session .a = some sess
    ∧ (∃ t, (leased Table.defaults).lease = some t ∧ t.holder = .a)
    ∧ (0x3F : Byte) ≠ 0 ∧ (0x3F : Byte) &&& 0xC0 = 0 ∧ (leased Table.defaults).journal.waiting = []
    ∧ (leased Table.defaults).journal.tally.isEmpty = true ∧ (leased Table.defaults).journal.entries.length < 384 :=
  ⟨(ready_leased _).1, rfl, ⟨_, rfl, rfl⟩, by decide, by decide, rfl, rfl, by decide⟩
theorem wit_RestartAndClearTally_refused :
    ((sA.readyFor .a ∧ sA.session .a = some sess ∧ ∀ t, sA.lease = some t → t.holder ≠ Port.a)
      ∧ leasedB.readyFor .a ∧ leasedB.session .a = some sess ∧ ∀ t, leasedB.lease = some t → t.holder ≠ Port.a)
    ∧ (0x40 : Byte) &&& 0xC0 ≠ 0 ∧ (0x80 : Byte) &&& 0xC0 ≠ 0 ∧ (1 : W16) ≠ (leased Table.defaults).config.generation :=
  ⟨without_lease, by decide, by decide, by decide⟩

/-! Sessions and ports. -/

/-- Port C sends at tick 70 and holds an OPEN_SESSION that became complete at tick 0. -/
def holdingOpen : State := { State.reset with
  front := { State.reset.front with tick := 70 }
  portC := { State.reset.portC with sending := some resp, held := some ⟨frameOf 1 (.openSession 0 1), some 30000⟩ } }
theorem wit_SessionOpens : State.reset.readyFor .a ∧ State.reset.session .a = none ∧ (1 : Byte).toNat ≤ 1
    ∧ (State.reset.config.committed.host.get .a).holdPermit = 1 ∧ (∀ q, State.reset.token = some q → q = Port.a)
    ∧ State.reset.journal.waiting = [] ∧ State.reset.journal.tally.isEmpty = true ∧ State.reset.journal.entries.length < 384
    ∧ (holdingOpen.pins.resetLow = false ∧ holdingOpen.config.restartDue = none ∧ holdingOpen.portC.sending = some resp
      ∧ resp.restartOk = false ∧ holdingOpen.portC.held = some ⟨frameOf 1 (.openSession 0 1), some 30000⟩
      ∧ holdingOpen.session .c = none ∧ holdingOpen.journal = State.reset.journal ∧ holdingOpen.token = none) :=
  ⟨ready _ _ rfl rfl rfl, rfl, by decide, by decide, fun q h => (nomatch h), rfl, rfl, by decide,
    ⟨rfl, rfl, rfl, rfl, rfl, rfl, rfl, rfl⟩⟩
/-- R174: a frame held from tick 0 sets its session's deadline from tick 0 and 30 s, though it is taken at tick 70. -/
theorem test_held_open_session_deadline :
    (((run .responseSent holdingOpen).session .c).map fun x => x.idleDeadline) = some (some 30000) := by decide
theorem test_held_frame_keeps_its_deadline :
    (run (.openSession .c 1 0 1) { State.reset with portC := { State.reset.portC with sending := some resp } }).portC.held
      = some ⟨frameOf 1 (.openSession 0 1), some 30000⟩ := by decide
theorem wit_SessionRefused : sA.readyFor .a ∧ sA.session .a = some sess ∧ State.reset.session .b = none ∧ sAHold.readyFor .b
    ∧ sAHold.session .b = none ∧ sAHold.token = some .a ∧ (.a : Port) ≠ .b ∧ ¬ (2 : Byte).toNat ≤ 1
    ∧ ((Table.defaults.set (.host .b .holdPermit) 0).host.get .b).holdPermit ≠ 1 :=
  ⟨ready_sA, rfl, rfl, ready _ _ rfl rfl rfl, rfl, rfl, by decide, by decide, by decide⟩
theorem leaseLaw_of_free (s : State) (h1 : s.lease = none) (h2 : s.queue = []) : s.LeaseLaw := by
  simp [State.LeaseLaw, h1, h2]
def sIdle : State := State.reset.setSession .c (some { sess with idleDeadline := some 0 })
theorem wit_SessionEnds : (sA.readyFor .a ∧ sA.LeaseLaw ∧ sA.session .a = some sess)
    ∧ (sIdle.pins.resetLow = false ∧ sIdle.LeaseLaw ∧ sIdle.session .c = some { sess with idleDeadline := some 0 }
      ∧ reached sIdle.front.tick 0 = true) ∧ State.reset.session .c = none
    ∧ sA.journal.entries.length + sA.journal.waiting.length + 4 ≤ 384 :=
  ⟨⟨ready_sA, leaseLaw_of_free _ rfl rfl, rfl⟩, ⟨rfl, leaseLaw_of_free _ rfl rfl, rfl, by decide⟩, rfl, by decide⟩
/-- A holder, with a waiter behind it and without; a session that neither holds nor waits; one that waits. -/
theorem wit_SessionEnds_lease :
    (let s : State := { leased Table.defaults with sessions := PerPort.all (some sess), queue := [⟨.b, 5⟩] };
      s.readyFor .a ∧ s.LeaseLaw ∧ s.session .a = some sess ∧ s.leaseEntriesAtEnd .a = [.leaseEvent .forfeited .a, .leaseEvent .granted .b]
      ∧ s.grantedAtEnd .a = some .b ∧ s.leaseEntriesAtEnd .b = [] ∧ s.session .c = some sess
      ∧ (∀ l, s.lease = some l → l.holder ≠ Port.c) ∧ ∀ w ∈ s.queue, w.host ≠ Port.c)
    ∧ (leased Table.defaults).LeaseLaw ∧ (leased Table.defaults).leaseEntriesAtEnd .a = [.leaseEvent .forfeited .a] := by
  refine ⟨⟨ready _ _ rfl rfl rfl, ⟨?_, ?_, by decide, by decide, ?_⟩, rfl, rfl, rfl, rfl, rfl, ?_, by decide⟩, ⟨?_, ?_, by decide, by decide, ?_⟩, rfl⟩
  · intro t h; cases h; exact ⟨rfl, by decide⟩
  · intro h; cases h
  · intro w h; cases List.mem_singleton.mp h; rfl
  · intro t h; cases h; decide
  · intro t h; cases h; exact ⟨rfl, by decide⟩
  · intro h; cases h
  · intro w h; cases h
/-- A full journal whose oldest entry the HOLD session of port A pins, while port B's session ends. -/
theorem wit_SessionEnds_held_back :
    let s : State := { holding with sessions := PerPort.all (some { sess with cursor := 1, ackPoint := 1 }) }
    s.readyFor .b ∧ s.LeaseLaw ∧ s.session .b = some { sess with cursor := 1, ackPoint := 1 }
    ∧ s.journal.entries = oldestGap :: laterGaps ∧ s.journal.entries.length = 384 ∧ Port.a ≠ .b ∧ s.token = some .a
    ∧ s.session .a = some { sess with cursor := 1, ackPoint := 1 }
    ∧ ({ sess with cursor := 1, ackPoint := 1 } : Session).pinsEntry s.journal.nextSeq oldestGap = true :=
  ⟨ready _ _ rfl rfl rfl, leaseLaw_of_free _ rfl rfl, rfl, rfl, length_full, by decide, rfl, rfl, by decide⟩
theorem wit_SyncTransaction : State.reset.pins.resetLow = false ∧ State.reset.pins.selLow.get .a = false
    ∧ (PerSync.get ⟨true, false⟩ SyncId.a) = true ∧ ((linkIn .first).links.get .a).phase = .first ∧ (1 : Byte) ≠ 0x55 ∧ (1 : Byte) ≠ 0 := by
  decide
/-- A length byte of 60 goes on and one of 61 does not; the gap is over at 8 ms and not at 7. -/
def lastByteToCome : State := { State.reset with links := State.reset.links.set .a ({ SyncLink.afterReset with
  phase := .request, receipt := [0x55, 7, 0x15, 0] }) }
theorem wit_RequestBytes : ((linkIn .request).links.get .a).phase = .request
    ∧ readReceipt (((linkIn .request).links.get .a).receipt ++ [60]) = .more ∧ ((linkIn .request).links.get .a).receipt.length = 3
    ∧ 60 < (61 : Byte).toNat ∧ Request.wellFormed .journalStatus = true ∧ (lastByteToCome.links.get .a).phase = .request
    ∧ (lastByteToCome.links.get .a).receipt
        = [0x55, 7, (frameOf 7 .journalStatus).code, (frameOf 7 .journalStatus).length] ++ (frameOf 7 .journalStatus).payload
    ∧ (0xE3 : Byte) = (frameOf 7 .journalStatus).check ∧ reached 8 (0 + 8) = true ∧ reached 7 (0 + 8) = false := by decide
def fetching (r : Response) (pos : Nat) : State := { State.reset with links := State.reset.links.set .a ({ SyncLink.afterReset with
  phase := .fetch, pending := some r, fetchPos := pos }) }
theorem wit_FetchByte : ((linkIn .fetch).links.get .a).phase = .fetch ∧ ((linkIn .fetch).links.get .a).pending = none
    ∧ (∀ ok pos, (fetching { resp with restartOk := ok } pos).pins.resetLow = false
      ∧ ((fetching { resp with restartOk := ok } pos).links.get .a).phase = .fetch
      ∧ ((fetching { resp with restartOk := ok } pos).links.get .a).pending = some { resp with restartOk := ok }
      ∧ ((fetching { resp with restartOk := ok } pos).links.get .a).fetchPos = pos)
    ∧ resp.bytes[3]? = some 0 ∧ 3 + 1 < resp.bytes.length ∧ resp.bytes[4]? = some 0xF8 ∧ 4 + 1 = resp.bytes.length :=
  ⟨rfl, rfl, fun _ _ => ⟨rfl, rfl, rfl, rfl⟩, by decide, by decide, by decide, by decide⟩
/-- Port C locked, in a phase with a receipt, under a rate mode. -/
def portCIn (phase : ReceivePhase) (receipt : List Byte) (mode : W16) : State := { State.reset with
  portC := { State.reset.portC with rateSpan := some 69444, phase := phase, receipt := receipt }
  config := { State.reset.config with committed := { Table.defaults with rateMode := mode } } }
/-- The intervals of a lead at seven and nine eighths of the mean; the slowest rate and the fastest; a length byte of 60 and of 61. -/
theorem wit_PortCReceives :
    (∀ i ∈ [7, 9, 8, 8], 7 * 32 ≤ 32 * i ∧ 32 * i ≤ 9 * 32) ∧ (7 * 32 ≤ 32 * 7) ∧ ¬ (32 * 10 ≤ 9 * 32)
    ∧ (1200 * 6666666 ≤ 8000000000 ∧ 8000000000 ≤ 230400 * 34723) ∧ ¬ (1200 * 6666667 ≤ 8000000000) ∧ ¬ (8000000000 ≤ 230400 * 34722)
    ∧ State.reset.portC.rateSpan = none
    ∧ (∀ phase receipt mode, (portCIn phase receipt mode).pins.resetLow = false
      ∧ (portCIn phase receipt mode).portC.rateSpan = some 69444 ∧ (portCIn phase receipt mode).portC.phase = phase
      ∧ (portCIn phase receipt mode).portC.receipt = receipt ∧ (portCIn phase receipt mode).config.committed.rateMode = mode)
    ∧ readReceipt ([0x55, 7, 0x15] ++ [60]) = .more ∧ 60 < (61 : Byte).toNat
    ∧ [0x55, 7, 0x15, 0]
        = [0x55, 7, (frameOf 7 .journalStatus).code, (frameOf 7 .journalStatus).length] ++ (frameOf 7 .journalStatus).payload
    ∧ (0xE3 : Byte) = (frameOf 7 .journalStatus).check :=
  ⟨by decide, by decide, by decide, by decide, by decide, by decide, rfl, fun _ _ _ => ⟨rfl, rfl, rfl, rfl, rfl⟩, by decide, by decide,
    by decide, by decide⟩
theorem wit_AnswersOnPorts : ∃ s : State, s.pins.resetLow = false ∧ s.portC.sending = some resp ∧ resp.restartOk = false
    ∧ s.portC.held = some ⟨frameOf 1 (.portStatus 0), none⟩ ∧ s.config.restartDue = none ∧ Request.wellFormed (.portStatus 0) = true
    ∧ (reqCodeOf (.portStatus 0)).needsSession = false :=
  ⟨{ State.reset with portC := { State.reset.portC with sending := some resp, held := some ⟨frameOf 1 (.portStatus 0), none⟩ } },
    rfl, rfl, rfl, rfl, rfl, rfl, rfl⟩
/-- A bad sum; a code that names nothing; a payload too short; a request without a session; and a good frame. -/
theorem wit_BadFrames : (RequestFrame.mk 7 0x15 [] 0xE2).sum ≠ 0xFF ∧ (RequestFrame.mk 7 0x06 [] 0xF2).sum = 0xFF
    ∧ ReqCode.ofByte 0x06 = none ∧ restartPending.config.restartDue ≠ none ∧ ReqCode.lengthOk .readEntries 0 = false
    ∧ (RequestFrame.mk 7 0x15 [] 0xE3).sum = 0xFF ∧ ReqCode.byte .journalStatus = 0x15 ∧ ReqCode.lengthOk .journalStatus 0 = true
    ∧ ReqCode.needsSession .journalStatus = true ∧ State.reset.session .a = none
    ∧ ReqCode.read .journalStatus [] = some .journalStatus := by decide
theorem wit_FrameRoundTrip : Request.wellFormed (.appendNote (List.replicate 16 0)) = true
    ∧ Request.wellFormed (.defineReadSet (List.replicate 12 1)) = true ∧ Request.wellFormed .rewind = true := by decide
theorem wit_RefusalsChangeNothing : sA.readyFor .a ∧ (sA.session .a).isSome = true
    ∧ ((sA.onSession .a (sA.touched .a)).perform .a (sA.deadlineFrom .a) (.ackEntries 0)).2.status = .badValue
    ∧ ((sA.onSession .a (sA.touched .a)).perform .a (sA.deadlineFrom .a) .leaseRelease).2.status = .notLeaseholder := ⟨ready_sA, rfl, by decide, by decide⟩

/-! Readers and the other requests. -/

/-- Counts of 1 and 8 are in range, 0 and 9 are not, nor is a byte with bit 4. -/
theorem wit_ReadEntries : sA.readyFor .a ∧ sA.session .a = some sess
    ∧ (∀ b ∈ [(0x01 : Byte), 0x08, 0x88], 1 ≤ (b &&& 0x0F).toNat ∧ (b &&& 0x0F).toNat ≤ 8 ∧ b &&& 0x70 = 0)
    ∧ (∀ b ∈ [(0x00 : Byte), 0x09, 0x11], ¬ (1 ≤ (b &&& 0x0F).toNat ∧ (b &&& 0x0F).toNat ≤ 8 ∧ b &&& 0x70 = 0)) :=
  ⟨ready_sA, rfl, by decide, by decide⟩
/-- With `next_seq` 10, cursor 8 and ack point 5: 7 moves the ack point, 4 is released already, 8 is refused. -/
theorem wit_ReaderRequests : sA.readyFor .a ∧ sA.session .a = some sess
    ∧ (distance 10 8 < distance 10 7 ∧ distance 10 (seqSucc 7) < distance 10 5)
    ∧ (distance 10 8 < distance 10 4 ∧ distance 10 5 ≤ distance 10 (seqSucc 4)) ∧ distance 10 8 ≤ distance 10 8
    ∧ (sA.config.committed.host.get .a).holdPermit = 1 ∧ (∀ q, sA.token = some q → q = Port.a) ∧ sAHold.token = some .a
    ∧ sA.token ≠ some .a ∧ sAHold.token ≠ some .b ∧ ((Table.defaults.set (.host .a .holdPermit) 0).host.get .a).holdPermit ≠ 1
    ∧ 1 < (2 : Byte).toNat :=
  ⟨ready_sA, rfl, by decide, by decide, by decide, by decide, fun q h => (nomatch h), rfl, by decide, by decide, by decide, by decide⟩
def sealedOne : State := { sA with store := { sA.store with
  sealedCaptures := [{ captureOf 3 [1] (List.replicate 4 frame0) with holders := noHosts.set .a true }] } }
theorem wit_StatusRequests : sealedOne.readyFor .a ∧ sealedOne.session .a = some sess ∧ (sealedOne.store.find 3).isSome = true
    ∧ (0 : Byte).toNat < [(1 : SlotId)].length ∧ (1023 : W16).toNat + (1 : Byte).toNat ≤ 1024 ∧ (19 : Byte).toNat ≤ 19 :=
  ⟨ready _ _ rfl rfl rfl, rfl, by decide, by decide, by decide, by decide⟩
/-- Id 4 is recording, id 3 sealed with one part, id 5 unknown; and the boundary arguments of READ_FRAMES, each bad alone. -/
theorem wit_StatusRequests_refused : (let s : State := { sealedOne with store := { sealedOne.store with mode := .post (captureOf 4 [0] []) } }
      s.readyFor .a ∧ s.session .a = some sess ∧ s.store.mode = .post (captureOf 4 [0] []) ∧ (captureOf 4 [0] []).id = 4
      ∧ (∀ d ∈ s.store.sealedCaptures, d.id ≠ 4) ∧ (s.store.find 3).isSome = true ∧ (4 : W16) ≠ 3
      ∧ ∀ c ∈ s.store.sealedCaptures ++ [captureOf 4 [0] []], c.id ≠ 5)
    ∧ [(1 : SlotId)].length ≤ (1 : Byte).toNat ∧ 3 < (4 : Byte).toNat ∧ 1023 < (1024 : W16).toNat ∧ 19 < (20 : Byte).toNat
    ∧ 1024 < (1023 : W16).toNat + (2 : Byte).toNat
    ∧ ¬ (((3 : W16) = 0) ∨ 3 < (3 : Byte).toNat ∨ 1023 < (1023 : W16).toNat ∨ (1 : Byte) = 0 ∨ 19 < (1 : Byte).toNat
      ∨ 1024 < (1023 : W16).toNat + (1 : Byte).toNat) :=
  ⟨⟨ready _ _ rfl rfl rfl, rfl, rfl, rfl, by decide, by decide, by decide, by decide⟩, by decide, by decide, by decide, by decide, by decide, by decide⟩
theorem wit_AttentionRequests : sA.readyFor .a ∧ sA.session .a = some sess ∧ (1 : Byte) ≠ 0 ∧ (255 : Byte) ≠ 0 :=
  ⟨ready_sA, rfl, by decide, by decide⟩
/-- STARVED, with the one sealed capture in all slots held by the HOLD session of port A. -/
def starvedByA : State := { sAHold with store := { sA.store with
  mode := .starved, sealedCaptures := [{ captureOf 2 [0, 1, 2, 3, 4, 5, 6, 7] [] with holders := noHosts.set .a true }] } }
def holdingFull : State := { holding with journal := { fullJournal with waiting := [] } }
theorem wit_NoteAndCaptureRequests : (sA.readyFor .a ∧ sA.session .a = some sess ∧ (List.replicate 16 (0 : Byte)).length = 16
      ∧ sA.journal.waiting = [] ∧ sA.journal.tally.isEmpty = true ∧ sA.journal.entries.length < 384)
    ∧ (holdingFull.readyFor .a ∧ holdingFull.journal.waiting = [] ∧ holdingFull.journal.entries = oldestGap :: laterGaps
      ∧ holdingFull.journal.entries.length = 384 ∧ holdingFull.token = some .a
      ∧ ({ sess with cursor := 1, ackPoint := 1 } : Session).pinsEntry holdingFull.journal.nextSeq oldestGap = true)
    ∧ sA.store.mode = .live 0 [] ∧ (sealedOne.store.find 3).map (fun c => c.holders.get .a) = some true
    ∧ (sealedOne.store.find 3).map (fun c => c.holders.get .b) = some false ∧ sealedOne.store.mode ≠ .starved
    ∧ (starvedByA.readyFor .a ∧ starvedByA.session .a = some sess ∧ starvedByA.store.mode = .starved ∧ starvedByA.token = some .a
      ∧ (∀ k : SlotId, k ∈ starvedByA.store.sealedCaptures.flatMap Capture.slots)
      ∧ (starvedByA.store.find 2).map (fun c => c.holders.get .a) = some true
      ∧ (captureOf 2 [0, 1, 2, 3, 4, 5, 6, 7] []).Reclaimed (some .a) [captureOf 2 [0, 1, 2, 3, 4, 5, 6, 7] []]
      ∧ IsLowest [0, 1, 2, 3, 4, 5, 6, 7] 0) :=
  ⟨⟨ready_sA, rfl, rfl, rfl, rfl, by decide⟩, ⟨ready _ _ rfl rfl rfl, rfl, rfl, length_full, rfl, by decide⟩, rfl, by decide, by decide,
    by decide, ⟨ready _ _ rfl rfl rfl, rfl, rfl, rfl, by decide, by decide, ⟨[], [], rfl, .inl ⟨rfl, by decide⟩⟩, by decide, by decide⟩⟩
/-- The STARVED store: when the HOLD session of port A ends its capture is reclaimed; when port B's ends A still holds it. A store that is
not STARVED does not try. -/
theorem wit_SessionEnds_retry : starvedByA.readyFor .a ∧ starvedByA.LeaseLaw ∧ starvedByA.session .a = some sess
    ∧ starvedByA.RetryAtEnd .a (some (captureOf 2 [0, 1, 2, 3, 4, 5, 6, 7] [], 0)) ∧ starvedByA.RetryAtEnd .b none
    ∧ sA.RetryAtEnd .a none :=
  ⟨ready _ _ rfl rfl rfl, leaseLaw_of_free _ rfl rfl, rfl,
    ⟨rfl, by decide, ⟨[], [], rfl, .inl ⟨rfl, by simp⟩⟩, by decide, by decide⟩,
    .inr ⟨by decide, fun c hc => by cases List.mem_singleton.mp hc; exact ⟨.a, rfl, rfl⟩⟩, .inl (by decide)⟩
/-- An id that no record holds; notes of another length. -/
theorem wit_NoteAndCaptureRequests_refused : (∀ c ∈ sealedOne.store.sealedCaptures, c.id ≠ 4) ∧ (4 : W16) ≠ 0
    ∧ (List.replicate 15 (0 : Byte)).length ≠ 16 ∧ (List.replicate 17 (0 : Byte)).length ≠ 16 :=
  ⟨by decide, by decide, by decide, by decide⟩
theorem wit_EnergyRequests : sA.readyFor .a ∧ sA.session .a = some sess ∧ (0x0F : Byte) ≠ 0 ∧ (0x0F : Byte) &&& 0xF0 = 0
    ∧ sA.energy.pendingSnapshot = none ∧ ∃ s : State, s.energy.pendingSnapshot = some ⟨7, noHosts.set .b true⟩ :=
  ⟨ready_sA, rfl, by decide, by decide, rfl,
    { sA with energy := { sA.energy with pendingSnapshot := some ⟨7, noHosts.set .b true⟩ } }, rfl⟩
/-- Two summaries and 10 two-byte quantities make 110 bytes; five accumulator blocks make 120. -/
theorem wit_ReadSetsAndPortStatus : sA.readyFor .a ∧ sA.session .a = some sess
    ∧ ([0x24, 0x24, 0x24, 0x24, 0x24] : List Byte) = (List.replicate 5 Quantity.values).map Quantity.byte
    ∧ ((List.replicate 5 Quantity.values).map Quantity.size).sum = 120 ∧ 1 < (2 : Byte).toNat :=
  ⟨ready_sA, rfl, by decide, by decide, by decide⟩
theorem wit_EnergyRequests_refused : sA.readyFor .a ∧ sA.session .a = some sess ∧ (0x10 : Byte) &&& 0xF0 ≠ 0 ∧ (0x80 : Byte) &&& 0xF0 ≠ 0 :=
  ⟨ready_sA, rfl, by decide, by decide⟩
/-- Code $00 is not in the catalogue, nor is $15; five accumulator blocks and a gate byte make 121 bytes; 13 codes are too many. -/
theorem wit_ReadSetsAndPortStatus_refused : sA.readyFor .a ∧ sA.session .a = some sess
    ∧ (∀ q : Quantity, q.byte ≠ 0x00) ∧ (∀ q : Quantity, q.byte ≠ 0x15) ∧ 12 < (List.replicate 13 (1 : Byte)).length
    ∧ ([0x24, 0x24, 0x24, 0x24, 0x24, 0x0E] : List Byte) = (List.replicate 5 Quantity.values ++ [Quantity.polarity]).map Quantity.byte
    ∧ ((List.replicate 5 Quantity.values ++ [Quantity.polarity]).map Quantity.size).sum = 121 := by
  refine ⟨ready_sA, rfl, ?_, ?_, by decide, by decide, by decide⟩ <;>
    (intro q; cases q with
      | value a => cases a <;> decide
      | _ => decide)

end Sys2Proof.Tests
end

section
/-! SUPPORT. The numbers before `next_seq` and the distances between them; the law of the journal under storing and removing. -/

namespace Sys2Proof.Machine

/-! ### The numbers before `next_seq` -/

theorem iterate_seqPred_ne_zero {next : W32} (h : next ≠ 0) (n : Nat) : seqPred^[n] next ≠ 0 := by
  induction n generalizing next with
  | zero => exact h
  | succ n ih => exact ih (seqPred_ne_zero h)

/-- The n-th number before `next` lies at distance n. -/
theorem distance_iterate_seqPred {next : W32} (h : next ≠ 0) {n : Nat} (hn : n < 0xFFFFFFFF) :
    distance next (seqPred^[n] next) = n := by
  induction n generalizing next with
  | zero => exact distance_self next
  | succ n ih =>
    have hp := seqPred_ne_zero h
    have back : distance (seqPred next) (seqPred^[n] (seqPred next)) = n := ih hp (by omega)
    have one := distance_seqSucc hp (iterate_seqPred_ne_zero hp n) (by omega)
    rwa [seqSucc_seqPred h, back] at one

/-- The oldest of n + 1 numbers before `next`, and the n numbers after it. -/
theorem seqsBefore_succ (next : W32) (n : Nat) : seqsBefore next (n + 1) = seqPred^[n + 1] next :: seqsBefore next n := by
  induction n generalizing next with
  | zero => rfl
  | succ n ih =>
    calc seqsBefore next (n + 2) = seqsBefore (seqPred next) (n + 1) ++ [seqPred next] := rfl
      _ = seqPred^[n + 2] next :: (seqsBefore (seqPred next) n ++ [seqPred next]) := by rw [ih]; rfl
      _ = seqPred^[n + 2] next :: seqsBefore next (n + 1) := rfl

theorem seqsBefore_seqSucc {next : W32} (h : next ≠ 0) (n : Nat) : seqsBefore (seqSucc next) (n + 1) = seqsBefore next n ++ [next] := by
  simp only [seqsBefore, seqPred_seqSucc h]

theorem mem_seqsBefore {next x : W32} {n : Nat} (h : x ∈ seqsBefore next n) : ∃ k, 1 ≤ k ∧ k ≤ n ∧ x = seqPred^[k] next := by
  induction n with
  | zero => cases h
  | succ n ih =>
    rw [seqsBefore_succ] at h
    cases h with
    | head => exact ⟨n + 1, by omega, le_refl _, rfl⟩
    | tail _ h =>
      obtain ⟨k, h1, h2, hx⟩ := ih h
      exact ⟨k, h1, by omega, hx⟩

/-- A number that is one of few before `next`: it is assignable, and no further back than they reach. -/
theorem distance_of_mem_seqsBefore {next x : W32} {n : Nat} (hn : next ≠ 0) (hb : n ≤ 384) (h : x ∈ seqsBefore next n) :
    x ≠ 0 ∧ 1 ≤ distance next x ∧ distance next x ≤ n := by
  obtain ⟨k, h1, h2, rfl⟩ := mem_seqsBefore h
  rw [distance_iterate_seqPred hn (by omega)]
  exact ⟨iterate_seqPred_ne_zero hn k, h1, h2⟩

/-- Of few numbers before `next`, each later one is nearer to it. -/
theorem seqsBefore_pairwise {next : W32} {n : Nat} (hn : next ≠ 0) (hb : n ≤ 384) :
    (seqsBefore next n).Pairwise fun x y => distance next y < distance next x := by
  induction n with
  | zero => exact .nil
  | succ n ih =>
    rw [seqsBefore_succ, List.pairwise_cons]
    refine ⟨fun y hy => ?_, ih (by omega)⟩
    obtain ⟨-, -, hle⟩ := distance_of_mem_seqsBefore hn (by omega) hy
    rw [distance_iterate_seqPred hn (by omega)]
    omega

/-! ### The law of the journal (R1) -/

theorem Journal.Law.nonempty {j : Journal} (h : j.Law) : j.entries ≠ [] := h.1
theorem Journal.Law.length_le {j : Journal} (h : j.Law) : j.entries.length ≤ 384 := h.2.1
theorem Journal.Law.nextSeq_ne_zero {j : Journal} (h : j.Law) : j.nextSeq ≠ 0 := h.2.2.1
theorem Journal.Law.consecutive {j : Journal} (h : j.Law) : j.entries.map Entry.seq = seqsBefore j.nextSeq j.entries.length := h.2.2.2

/-- The entries of a lawful journal: assignable numbers, none further back than there are entries. -/
theorem Journal.Law.distance_entry {j : Journal} (h : j.Law) {e : Entry} (he : e ∈ j.entries) :
    e.seq ≠ 0 ∧ 1 ≤ distance j.nextSeq e.seq ∧ distance j.nextSeq e.seq ≤ j.entries.length := by
  obtain ⟨-, hl, hn, hs⟩ := h
  exact distance_of_mem_seqsBefore hn hl (hs ▸ List.mem_map_of_mem he)

/-- The oldest entry of a lawful journal lies as far back as there are entries, and the others consecutively after it. -/
theorem Journal.Law.oldest {j : Journal} (h : j.Law) {e : Entry} {rest : List Entry} (he : j.entries = e :: rest) :
    distance j.nextSeq e.seq = rest.length + 1 ∧ rest.map Entry.seq = seqsBefore j.nextSeq rest.length := by
  obtain ⟨-, hl, hn, hs⟩ := h
  rw [he] at hl hs
  simp only [List.length_cons, List.map_cons, seqsBefore_succ, List.cons.injEq] at hl hs
  have : rest.length + 1 ≤ 384 := hl
  exact ⟨by rw [hs.1, distance_iterate_seqPred hn (by omega)], hs.2⟩

/-- Later entries of a lawful journal are nearer to `next_seq`. -/
theorem Journal.Law.pairwise {j : Journal} (h : j.Law) :
    j.entries.Pairwise fun e f => distance j.nextSeq f.seq < distance j.nextSeq e.seq := by
  obtain ⟨-, hl, hn, hs⟩ := h
  exact List.pairwise_map.mp (hs ▸ seqsBefore_pairwise hn hl)

/-- An entry stored after fewer than 384 consecutive ones. -/
theorem Journal.push_law {j : Journal} (hn : j.nextSeq ≠ 0) (hs : j.entries.map Entry.seq = seqsBefore j.nextSeq j.entries.length)
    (hl : j.entries.length < journalCapacity) (tick hc : W32) (body : EntryBody) : (j.push tick hc body).Law := by
  refine ⟨by simp [Journal.push], by simpa [Journal.push] using hl, seqSucc_ne_zero _, ?_⟩
  simp [Journal.push, hs, seqsBefore_seqSucc hn]

/-- The oldest entry removed and another stored (R16). -/
theorem Journal.Law.evict {j : Journal} (h : j.Law) {e : Entry} {rest : List Entry} (he : j.entries = e :: rest) (tick hc : W32)
    (body : EntryBody) : ({ j with entries := rest }.push tick hc body).Law := by
  have hl := h.length_le
  rw [he, List.length_cons] at hl
  exact Journal.push_law (j := { j with entries := rest }) h.nextSeq_ne_zero (h.oldest he).2 hl tick hc body

end Sys2Proof.Machine
end

section
/-! SUPPORT. The readers under storing and removing: their law (R3, R24), and what a session pins (R16). -/

namespace Sys2Proof.Machine

/-- A number no further back than the oldest entry is one place further back once another entry is stored. -/
theorem Journal.Law.distance_seqSucc {j : Journal} (h : j.Law) {y : W32} (hy : y ≠ 0) (hd : distance j.nextSeq y ≤ j.entries.length) :
    distance (seqSucc j.nextSeq) y = distance j.nextSeq y + 1 := by
  have := h.length_le
  exact Machine.distance_seqSucc h.nextSeq_ne_zero hy (by omega)

/-- A reader's number moved past the oldest entry is as far back as it was, but no further than the entries after that (R19). -/
theorem Journal.Law.distance_moved {j : Journal} (h : j.Law) {e : Entry} {rest : List Entry} (he : j.entries = e :: rest) {y : W32}
    (hy : y ≠ 0) (hd : distance j.nextSeq y ≤ j.entries.length) :
    (if atOrBefore j.nextSeq y e.seq then seqSucc e.seq else y) ≠ 0
      ∧ distance j.nextSeq (if atOrBefore j.nextSeq y e.seq then seqSucc e.seq else y) = min (distance j.nextSeq y) rest.length := by
  have hold := (h.oldest he).1
  have h0 : e.seq ≠ 0 := (h.distance_entry (by simp [he])).1
  have hlen : j.entries.length = rest.length + 1 := by simp [he]
  by_cases hb : atOrBefore j.nextSeq y e.seq = true
  · have hne : e.seq ≠ j.nextSeq := fun k => by rw [k, distance_self] at hold; omega
    have one := distance_of_seqSucc h.nextSeq_ne_zero h0 hne
    have : distance j.nextSeq e.seq ≤ distance j.nextSeq y := by simpa [atOrBefore] using hb
    exact ⟨by simpa [hb] using seqSucc_ne_zero _, by simp only [hb, if_true]; omega⟩
  · have : distance j.nextSeq y < distance j.nextSeq e.seq := by simpa [atOrBefore] using hb
    exact ⟨by simpa [hb] using hy, by rw [if_neg hb]; omega⟩

/-! ### The law of the readers -/

theorem Session.Law.cursor_ne_zero {x : Session} {j : Journal} (h : x.Law j) : x.cursor ≠ 0 := h.1
theorem Session.Law.ackPoint_ne_zero {x : Session} {j : Journal} (h : x.Law j) : x.ackPoint ≠ 0 := h.2.1
theorem Session.Law.distance_ackPoint_le {x : Session} {j : Journal} (h : x.Law j) :
    distance j.nextSeq x.ackPoint ≤ j.entries.length := h.2.2.2.1

theorem Session.Law.distance_cursor_le {x : Session} {j : Journal} (h : x.Law j) : distance j.nextSeq x.cursor ≤ j.entries.length := by
  obtain ⟨-, -, hca, hal, -⟩ := h
  exact le_trans hca hal

theorem Session.Law.push {x : Session} {j : Journal} (h : x.Law j) (hj : j.Law) (tick hc : W32) (body : EntryBody) :
    x.Law (j.push tick hc body) := by
  have hcur := hj.distance_seqSucc h.cursor_ne_zero h.distance_cursor_le
  obtain ⟨hc0, ha0, hca, hal, hm⟩ := h
  have hack := hj.distance_seqSucc ha0 hal
  refine ⟨hc0, ha0, ?_, ?_, hm⟩ <;> simp only [Journal.push, hcur, hack, List.length_append, List.length_singleton] <;> omega

theorem Session.Law.passRemoved {x : Session} {j : Journal} (h : x.Law j) (hj : j.Law) {e : Entry} {rest : List Entry}
    (he : j.entries = e :: rest) (tick hc : W32) (body : EntryBody) :
    (x.passRemoved j.nextSeq e).Law ({ j with entries := rest }.push tick hc body) := by
  have hlen : j.entries.length = rest.length + 1 := by simp [he]
  obtain ⟨hcur0, hcur⟩ := hj.distance_moved he h.cursor_ne_zero h.distance_cursor_le
  obtain ⟨-, ha0, hca, hal, hm⟩ := h
  obtain ⟨hack0, hack⟩ := hj.distance_moved he ha0 hal
  have hcur' := hj.distance_seqSucc hcur0 (by omega)
  have hack' := hj.distance_seqSucc hack0 (by omega)
  refine ⟨hcur0, hack0, ?_, ?_, hm⟩ <;>
    simp only [Session.passRemoved, Journal.push, hcur', hack', hcur, hack, List.length_append, List.length_singleton] <;> omega

/-! ### What a session pins -/

theorem Session.pinsEntry_iff (x : Session) (next : W32) (e : Entry) :
    x.pinsEntry next e = true ↔ maskHas x.mask e.body.cls = true ∧ distance next e.seq ≤ distance next x.ackPoint := by
  simp [Session.pinsEntry, atOrBefore]

/-- A session still pins a stored entry when another has been stored. -/
theorem Session.pinsEntry_push {x : Session} {j : Journal} (h : x.Law j) (hj : j.Law) {f : Entry} (hf : f ∈ j.entries)
    (hp : x.pinsEntry j.nextSeq f = true) : x.pinsEntry (seqSucc j.nextSeq) f = true := by
  obtain ⟨hf0, -, hfl⟩ := hj.distance_entry hf
  rw [Session.pinsEntry_iff] at hp ⊢
  rw [hj.distance_seqSucc hf0 hfl, hj.distance_seqSucc h.ackPoint_ne_zero h.distance_ackPoint_le]
  exact ⟨hp.1, Nat.add_le_add_right hp.2 1⟩

/-- A session still pins an entry when an older one has been removed and another stored. -/
theorem Session.pinsEntry_passRemoved {x : Session} {j : Journal} (h : x.Law j) (hj : j.Law) {e f : Entry} {rest : List Entry}
    (he : j.entries = e :: rest) (hf : f ∈ rest) (hp : x.pinsEntry j.nextSeq f = true) :
    (x.passRemoved j.nextSeq e).pinsEntry (seqSucc j.nextSeq) f = true := by
  have hlen : j.entries.length = rest.length + 1 := by simp [he]
  have hpair := hj.pairwise
  rw [he, List.pairwise_cons] at hpair
  have hfe := hpair.1 f hf
  obtain ⟨hf0, -, hfl⟩ := hj.distance_entry (e := f) (by simp [he, hf])
  obtain ⟨hack0, hack⟩ := hj.distance_moved he h.ackPoint_ne_zero h.distance_ackPoint_le
  have hold := (hj.oldest he).1
  rw [Session.pinsEntry_iff] at hp ⊢
  refine ⟨hp.1, ?_⟩
  rw [hj.distance_seqSucc hf0 hfl]
  simp only [Session.passRemoved]
  rw [hj.distance_seqSucc hack0 (by omega), hack]
  omega

/-- A session that does not pin the removed entry is not overrun (R18). -/
theorem Session.passRemoved_overrunCount {x : Session} {next : W32} {e : Entry} (h : x.pinsEntry next e = false) :
    (x.passRemoved next e).overrunCount = x.overrunCount := by simp [Session.passRemoved, h]

/-! ### The readers' own moves (R25, R28, R32 to R34) -/

theorem walk_stop {mask : Byte} {max : Nat} {l : List Entry} {seq : W32} :
    ∀ {count bytes : Nat}, (walk mask max count bytes l).2 = some seq → ∃ e ∈ l, e.seq = seq := by
  induction l with
  | nil => intro count bytes h; cases h
  | cons e l ih =>
    intro count bytes h
    simp only [walk] at h
    split at h
    · obtain ⟨f, hf, hs⟩ := ih h
      exact ⟨f, .tail _ hf, hs⟩
    · split at h
      · obtain ⟨f, hf, hs⟩ := ih h
        exact ⟨f, .tail _ hf, hs⟩
      · exact ⟨e, .head _, by cases h; rfl⟩

/-- The entries that a walk goes over lie at or after the cursor. -/
theorem Journal.Law.fromCursor {j : Journal} (hj : j.Law) {cursor : W32} {e : Entry} (he : e ∈ j.fromCursor cursor) :
    e ∈ j.entries ∧ distance j.nextSeq e.seq ≤ distance j.nextSeq cursor := by
  have hsub : (j.fromCursor cursor).Sublist j.entries := List.dropWhile_sublist _
  have hpair := hj.pairwise.sublist hsub
  refine ⟨hsub.subset he, ?_⟩
  cases hc : j.fromCursor cursor with
  | nil => rw [hc] at he; cases he
  | cons f l =>
    have hf : distance j.nextSeq f.seq ≤ distance j.nextSeq cursor := by
      have hne : j.fromCursor cursor ≠ [] := by simp [hc]
      have hhead : (j.fromCursor cursor).head hne = f := by simp [hc]
      have hnot : (!((j.fromCursor cursor).head hne).atOrAfter j.nextSeq cursor) = false := List.head_dropWhile_not _ hne
      simpa [hhead, Entry.atOrAfter, atOrBefore] using hnot
    rw [hc] at he hpair
    cases he with
    | head => exact hf
    | tail _ he => exact le_trans (le_of_lt ((List.pairwise_cons.mp hpair).1 e he)) hf

/-- A session moved by a request of its own: its overrun count stands, and its law is kept. -/
def Session.Repositioned (x y : Session) (j : Journal) : Prop :=
  y.overrunCount = x.overrunCount ∧ (j.Law → x.Law j → y.Law j)

theorem Session.read_repositioned (x : Session) (j : Journal) (max : Nat) (auto : Bool) : x.Repositioned (x.read j max auto).1 j := by
  refine ⟨rfl, fun hj h => ?_⟩
  have hcur : ((x.read j max auto).1.cursor ≠ 0)
      ∧ distance j.nextSeq (x.read j max auto).1.cursor ≤ distance j.nextSeq x.cursor := by
    simp only [Session.read]
    split
    · exact ⟨hj.nextSeq_ne_zero, by rw [distance_self]; exact Nat.zero_le _⟩
    · rename_i hs
      obtain ⟨e, he, rfl⟩ := walk_stop hs
      obtain ⟨hm, hd⟩ := hj.fromCursor he
      exact ⟨(hj.distance_entry hm).1, hd⟩
  have hall := h.distance_cursor_le
  obtain ⟨-, ha0, hca, hal, hm⟩ := h
  cases auto with
  | true => exact ⟨hcur.1, hcur.1, le_refl _, le_trans hcur.2 hall, hm⟩
  | false => exact ⟨hcur.1, ha0, le_trans hcur.2 hca, hal, hm⟩

/-- An ack point moved past a number between it and the cursor (R32). -/
theorem Session.ack_repositioned (x : Session) (j : Journal) {seq : W32} (h0 : seq ≠ 0)
    (h1 : atOrBefore j.nextSeq x.cursor seq = false) (h2 : atOrBefore j.nextSeq (seqSucc seq) x.ackPoint = false) :
    x.Repositioned { x with ackPoint := seqSucc seq } j := by
  refine ⟨rfl, fun hj ⟨hc0, _, _, hal, hm⟩ => ?_⟩
  have h1 : distance j.nextSeq x.cursor < distance j.nextSeq seq := by simpa [atOrBefore] using h1
  have h2 : distance j.nextSeq (seqSucc seq) < distance j.nextSeq x.ackPoint := by simpa [atOrBefore] using h2
  have hne : seq ≠ j.nextSeq := fun k => by rw [k, distance_self] at h1; omega
  have one := distance_of_seqSucc hj.nextSeq_ne_zero h0 hne
  have hcur : distance j.nextSeq x.cursor ≤ distance j.nextSeq (seqSucc seq) := by omega
  have hack : distance j.nextSeq (seqSucc seq) ≤ j.entries.length := by omega
  exact ⟨hc0, seqSucc_ne_zero _, hcur, hack, hm⟩

theorem Session.rewind_repositioned (x : Session) (j : Journal) : x.Repositioned { x with cursor := x.ackPoint } j :=
  ⟨rfl, fun _ ⟨_, ha0, _, hal, hm⟩ => ⟨ha0, ha0, le_refl _, hal, hm⟩⟩

theorem maskHas_system (mask : Byte) : maskHas (mask ||| systemMask) .system = true := by
  have : systemMask.getLsbD EntryClass.system.number = true := by decide
  simp only [maskHas, BitVec.getLsbD_or, this, Bool.or_true]

/-- The ack point moves to the cursor, and SYSTEM stays in the mask (R34). -/
theorem Session.subscribe_repositioned (x : Session) (j : Journal) (mask : Byte) :
    x.Repositioned { x with ackPoint := x.cursor, mask := mask ||| systemMask } j :=
  ⟨rfl, fun _ h => ⟨h.cursor_ne_zero, h.cursor_ne_zero, le_refl _, h.distance_cursor_le, maskHas_system mask⟩⟩

/-- A session opened at the oldest entry or at `next_seq` (R25). -/
theorem Session.fresh_law {j : Journal} (hj : j.Law) (deadline : Option W32) (fromOldest : Bool) :
    (Session.fresh (if fromOldest then j.oldestSeq else j.nextSeq) deadline).Law j := by
  have hm : maskHas systemMask .system = true := by decide
  cases fromOldest with
  | false =>
    have here : distance j.nextSeq j.nextSeq ≤ j.entries.length := by rw [distance_self]; exact Nat.zero_le _
    exact ⟨hj.nextSeq_ne_zero, hj.nextSeq_ne_zero, le_refl _, here, hm⟩
  | true =>
    cases he : j.entries with
    | nil => exact absurd he hj.nonempty
    | cons e rest =>
      have ho : j.oldestSeq = e.seq := by simp [Journal.oldestSeq, he]
      obtain ⟨h0, -, hd⟩ := hj.distance_entry (e := e) (by simp [he])
      rw [if_pos rfl, ho]
      exact ⟨h0, h0, le_refl _, hd, hm⟩

end Sys2Proof.Machine
end

section
/-! SUPPORT. What a command can do, in the terms of the journal and its readers: work that leaves the stored journal alone (`Quiet`,
`Still`), the storing and counting of appends (`Storing`), and the course of a command as a whole (`Course`). Every law of the journal, of the
readers and of the counters is derived from these. -/

namespace Sys2Proof.Machine

/-! ### Counters of the other blocks -/

def SyncLink.Bounded (k : SyncLink) : Prop := k.counters.Bounded ∧ k.unfetched ≤ limit8
def AsyncLink.Bounded (k : AsyncLink) : Prop := k.counters.Bounded ∧ k.overlap ≤ limit8
def CaptureStore.Bounded (st : CaptureStore) : Prop := ∀ c ∈ st.table, c.extra ≤ limit8

/-- The saturating counters beside those of the journal and the readers are within their ranges. -/
structure State.BlockCounters (s : State) : Prop where
  links : ∀ k, (s.links.get k).Bounded
  portC : s.portC.Bounded
  dets : ∀ d, (s.det.dets.get d).Bounded
  engines : ∀ e, (s.energy.engines.get e).Bounded
  captures : s.store.Bounded

/-- The counters of the loss tally and of the readers. -/
structure State.ReaderCounters (s : State) : Prop where
  tally : ∀ c, s.journal.tally.counts.get c ≤ limit16
  overruns : ∀ p x, s.session p = some x → x.overrunCount ≤ limit16

theorem State.bounded_iff (s : State) : s.Bounded ↔ s.BlockCounters ∧ s.ReaderCounters :=
  ⟨fun ⟨hl, hc, ho, ht, hx, hd, he, hs⟩ => ⟨⟨hl, ⟨hc, ho⟩, hd, he, hs⟩, ⟨ht, hx⟩⟩,
    fun ⟨⟨hl, hc, hd, he, hs⟩, ⟨ht, hx⟩⟩ => ⟨hl, hc.1, hc.2, ht, hx, hd, he, hs⟩⟩

/-! ### Work beside the stored journal -/

/-- The journal but for the appends that wait. -/
def Journal.stored (j : Journal) : Journal := { j with waiting := [] }

/-- What the rules of chapters 1 and 2 read of a session. -/
def Session.reader (x : Session) : Byte × W32 × W32 × Nat := (x.mask, x.cursor, x.ackPoint, x.overrunCount)

/-- Work beside the journal: nothing is stored, removed or counted, the tick stands, and the other blocks' counters stay in range. -/
structure Beside (s t : State) : Prop where
  journal : t.journal.stored = s.journal.stored
  tick : t.front.tick = s.front.tick
  counters : s.BlockCounters → t.BlockCounters

/-- Work that no reader notices: the token and what the journal reads of the sessions stand too. -/
structure Quiet (s t : State) : Prop extends Beside s t where
  token : t.token = s.token
  readers : ∀ p, (t.session p).map Session.reader = (s.session p).map Session.reader

/-- Work in which sessions may move themselves, by requests of their own. -/
structure Still (s t : State) : Prop extends Beside s t where
  closed : ∀ p, s.session p = none → t.session p = none
  moved : ∀ p x, s.session p = some x → ∃ y, t.session p = some y ∧ x.Repositioned y s.journal

theorem Beside.entries {s t : State} (h : Beside s t) : t.journal.entries = s.journal.entries :=
  show t.journal.stored.entries = s.journal.stored.entries by rw [h.journal]
theorem Beside.nextSeq {s t : State} (h : Beside s t) : t.journal.nextSeq = s.journal.nextSeq :=
  show t.journal.stored.nextSeq = s.journal.stored.nextSeq by rw [h.journal]
theorem Beside.epoch {s t : State} (h : Beside s t) : t.journal.epoch = s.journal.epoch :=
  show t.journal.stored.epoch = s.journal.stored.epoch by rw [h.journal]
theorem Beside.tally {s t : State} (h : Beside s t) : t.journal.tally = s.journal.tally :=
  show t.journal.stored.tally = s.journal.stored.tally by rw [h.journal]

theorem Beside.trans {s t u : State} (h : Beside s t) (k : Beside t u) : Beside s u :=
  ⟨k.journal.trans h.journal, k.tick.trans h.tick, k.counters ∘ h.counters⟩

theorem Quiet.refl (s : State) : Quiet s s := ⟨⟨rfl, rfl, id⟩, rfl, fun _ => rfl⟩

/-- All of the state that quiet work could disturb. -/
def State.watched (s : State) : Journal × W32 × Option Port × PerPort (Option Session) × PerSync SyncLink × AsyncLink × PerDet Detector
    × PerPulse PulseEngine × List Capture :=
  (s.journal.stored, s.front.tick, s.token, s.sessions, s.links, s.portC, s.det.dets, s.energy.engines, s.store.table)

theorem Quiet.of_watched {s t : State} (h : t.watched = s.watched) : Quiet s t := by
  obtain ⟨hj, htick, htoken, hx, hl, hc, hd, he, hs⟩ : t.journal.stored = s.journal.stored ∧ t.front.tick = s.front.tick
      ∧ t.token = s.token ∧ t.sessions = s.sessions ∧ t.links = s.links ∧ t.portC = s.portC ∧ t.det.dets = s.det.dets
      ∧ t.energy.engines = s.energy.engines ∧ t.store.table = s.store.table := by simpa [State.watched] using h
  refine ⟨⟨hj, htick, fun k => ⟨hl ▸ k.links, hc ▸ k.portC, hd ▸ k.dets, he ▸ k.engines, fun c hm => ?_⟩⟩, htoken, fun p => ?_⟩
  · exact k.captures c (hs ▸ hm)
  · rw [State.session, hx]; rfl

/-! ### One block replaced -/

theorem Quiet.setSessions {s : State} (v : PerPort (Option Session))
    (hv : ∀ p, (v.get p).map Session.reader = (s.session p).map Session.reader) : Quiet s { s with sessions := v } :=
  ⟨⟨rfl, rfl, fun h => ⟨h.links, h.portC, h.dets, h.engines, h.captures⟩⟩, rfl, hv⟩

theorem Quiet.setDet {s : State} (bank : DetectorBank)
    (hb : (∀ d, (s.det.dets.get d).Bounded) → ∀ d, (bank.dets.get d).Bounded) : Quiet s { s with det := bank } :=
  ⟨⟨rfl, rfl, fun h => ⟨h.links, h.portC, hb h.dets, h.engines, h.captures⟩⟩, rfl, fun _ => rfl⟩

theorem Quiet.setEnergy {s : State} (en : EnergyBlock)
    (hen : (∀ e, (s.energy.engines.get e).Bounded) → ∀ e, (en.engines.get e).Bounded) : Quiet s { s with energy := en } :=
  ⟨⟨rfl, rfl, fun h => ⟨h.links, h.portC, h.dets, hen h.engines, h.captures⟩⟩, rfl, fun _ => rfl⟩

theorem Quiet.setLinks {s : State} (v : PerSync SyncLink) (hv : (∀ k, (s.links.get k).Bounded) → ∀ k, (v.get k).Bounded) :
    Quiet s { s with links := v } :=
  ⟨⟨rfl, rfl, fun h => ⟨hv h.links, h.portC, h.dets, h.engines, h.captures⟩⟩, rfl, fun _ => rfl⟩

theorem Quiet.setPortC {s : State} (k : AsyncLink) (hk : s.portC.Bounded → k.Bounded) : Quiet s { s with portC := k } :=
  ⟨⟨rfl, rfl, fun h => ⟨h.links, hk h.portC, h.dets, h.engines, h.captures⟩⟩, rfl, fun _ => rfl⟩

/-- Quiet work followed by another state of the Capture Store, whose counts are in range if all were before that work. -/
theorem Quiet.setStore {s₀ s : State} (h : Quiet s₀ s) (st : CaptureStore) (hst : s₀.BlockCounters → s.store.Bounded → st.Bounded) :
    Quiet s₀ { s with store := st } :=
  ⟨⟨h.journal, h.tick, fun hs =>
    have k := h.counters hs
    ⟨k.links, k.portC, k.dets, k.engines, hst hs k.captures⟩⟩, h.token, h.readers⟩

theorem Quiet.trans {s t u : State} (h : Quiet s t) (k : Quiet t u) : Quiet s u :=
  ⟨h.toBeside.trans k.toBeside, k.token.trans h.token, fun p => (k.readers p).trans (h.readers p)⟩

/-- The law of the journal reads only what is stored. -/
theorem Journal.law_of_stored {j k : Journal} (h : k.stored = j.stored) (hj : j.Law) : k.Law :=
  show k.stored.Law from h ▸ (show j.stored.Law from hj)

/-- The law of a session reads only the session as a reader and what is stored. -/
theorem Session.law_of_stored {x : Session} {j k : Journal} (h : k.stored = j.stored) (hx : x.Law j) : x.Law k :=
  show x.Law k.stored from h ▸ (show x.Law j.stored from hx)

theorem Session.law_of_reader {x y : Session} {j : Journal} (h : y.reader = x.reader) (hx : x.Law j) : y.Law j := by
  obtain ⟨hm, hc, ha, -⟩ : y.mask = x.mask ∧ y.cursor = x.cursor ∧ y.ackPoint = x.ackPoint ∧ y.overrunCount = x.overrunCount := by
    simpa [Session.reader] using h
  unfold Session.Law at hx ⊢
  rwa [hm, hc, ha]

theorem Session.overrunCount_of_reader {x y : Session} (h : y.reader = x.reader) : y.overrunCount = x.overrunCount :=
  congrArg (fun r => r.2.2.2) h

theorem Session.pinsEntry_of_reader {x y : Session} (h : y.reader = x.reader) (next : W32) (e : Entry) :
    y.pinsEntry next e = x.pinsEntry next e := by
  have hm : y.mask = x.mask := congrArg (fun r => r.1) h
  have ha : y.ackPoint = x.ackPoint := congrArg (fun r => r.2.2.1) h
  simp only [Session.pinsEntry, hm, ha]

/-- An open session stays open, the same to the journal. -/
theorem Quiet.session {s t : State} (h : Quiet s t) {p : Port} {x : Session} (hx : s.session p = some x) :
    ∃ y, t.session p = some y ∧ y.reader = x.reader := by
  have hr := h.readers p
  rw [hx] at hr
  cases hy : t.session p with
  | none => rw [hy] at hr; cases hr
  | some y => rw [hy] at hr; exact ⟨y, rfl, Option.some.inj hr⟩

theorem Quiet.session_none {s t : State} (h : Quiet s t) {p : Port} (hx : s.session p = none) : t.session p = none := by
  have hr := h.readers p
  rw [hx] at hr
  exact Option.map_eq_none_iff.mp hr

theorem Quiet.still {s t : State} (h : Quiet s t) : Still s t :=
  ⟨h.toBeside, fun _ => h.session_none, fun _ _ hx =>
    have ⟨y, hy, hr⟩ := h.session hx
    ⟨y, hy, Session.overrunCount_of_reader hr, fun _ => Session.law_of_reader hr⟩⟩

theorem Still.trans {s t u : State} (h : Still s t) (k : Still t u) : Still s u := by
  refine ⟨h.toBeside.trans k.toBeside, fun p hp => k.closed p (h.closed p hp), fun p x hx => ?_⟩
  obtain ⟨y, hy, hxy, hlaw⟩ := h.moved p x hx
  obtain ⟨z, hz, hyz, hlaw'⟩ := k.moved p y hy
  refine ⟨z, hz, hyz.trans hxy, fun hj hl => ?_⟩
  exact Session.law_of_stored h.journal.symm (hlaw' (Journal.law_of_stored h.journal hj) (Session.law_of_stored h.journal (hlaw hj hl)))

/-! ### Storing and counting -/

/-- What the taking of appends is made of (R12 to R19): quiet work, an entry stored where there is room, an entry stored in the place of an
oldest entry that is not held back, a loss counted, and the tally emptied. -/
inductive Storing : State → State → Prop
  | quiet {s t : State} (h : Quiet s t) : Storing s t
  | push (s : State) (tick hc : W32) (body : EntryBody) (room : s.journal.entries.length < journalCapacity) :
      Storing s { s with journal := s.journal.push tick hc body }
  | evict (s : State) (e : Entry) (rest : List Entry) (tick hc : W32) (body : EntryBody) (he : s.journal.entries = e :: rest)
      (free : s.heldBack e = false) : Storing s (s.evicted e rest tick hc body)
  | count (s : State) (tick : W32) (body : EntryBody) : Storing s (s.countLost tick body)
  | empty (s : State) : Storing s s.emptyTally
  | trans {s t u : State} (h : Storing s t) (k : Storing t u) : Storing s u

theorem Storing.refl (s : State) : Storing s s := .quiet (.refl s)

theorem State.tryStore_storing (s : State) (tick hc : W32) (body : EntryBody) : Storing s (s.tryStore tick hc body).1 := by
  rcases s.tryStore_cases tick hc body with ⟨room, h⟩ | ⟨_, _, -, -, -, h⟩ | ⟨e, rest, he, -, free, h⟩ <;> rw [h]
  · exact .push s tick hc body room
  · exact .refl s
  · exact .evict s e rest tick hc body he free

theorem State.storeOrCount_storing (s : State) (tick hc : W32) (body : EntryBody) : Storing s (s.storeOrCount tick hc body).1 := by
  have k := s.tryStore_storing tick hc body
  rcases s.storeOrCount_cases tick hc body with ⟨s', seq, h, h'⟩ | ⟨s', h, h'⟩ <;> (rw [h'] ; rw [h] at k)
  · exact k
  · exact k.trans (.count s' tick body)

theorem State.takeAppend_storing (s : State) (tick hc : W32) (body : EntryBody) : Storing s (s.takeAppend tick hc body).1 := by
  have gap := s.tryStore_storing tick hc (.gap s.journal.tally.counts s.journal.tally.first s.journal.tally.last)
  rcases s.takeAppend_cases tick hc body with ⟨-, h⟩ | ⟨-, ⟨s', seq, hs, h⟩ | ⟨s', hs, h⟩⟩ <;> rw [h]
  · exact s.storeOrCount_storing tick hc body
  · rw [hs] at gap
    exact gap.trans (.trans (.empty s') (s'.emptyTally.storeOrCount_storing tick hc body))
  · rw [hs] at gap
    exact gap.trans (.count s' tick body)

theorem State.settle_storing (s : State) : Storing s s.settle :=
  s.settle_induction (Storing s) (.quiet (.of_watched rfl)) fun t tick hc body h =>
    h.trans (t.takeAppend_storing tick hc body)

theorem State.appendNow_storing (s : State) (body : EntryBody) : Storing s (s.appendNow body).1 :=
  s.settle_storing.trans (s.settle.takeAppend_storing s.nowTick s.nowHc body)

/-! ### What storing keeps -/

theorem State.evicted_session (s : State) (e : Entry) (rest : List Entry) (tick hc : W32) (body : EntryBody) (p : Port) :
    (s.evicted e rest tick hc body).session p = (s.session p).map fun x => x.passRemoved s.journal.nextSeq e := by
  cases p <;> rfl

theorem Storing.token {s t : State} (h : Storing s t) : t.token = s.token := by
  induction h with
  | quiet h => exact h.token
  | trans _ _ ih ih' => exact ih'.trans ih
  | _ => rfl

theorem Storing.tick {s t : State} (h : Storing s t) : t.front.tick = s.front.tick := by
  induction h with
  | quiet h => exact h.tick
  | trans _ _ ih ih' => exact ih'.trans ih
  | _ => rfl

theorem Storing.epoch {s t : State} (h : Storing s t) : t.journal.epoch = s.journal.epoch := by
  induction h with
  | quiet h => exact h.epoch
  | trans _ _ ih ih' => exact ih'.trans ih
  | _ => rfl

/-- Storing opens no session. -/
theorem Storing.closed {s t : State} (h : Storing s t) {p : Port} (hp : s.session p = none) : t.session p = none := by
  induction h with
  | quiet h => exact h.session_none hp
  | evict s e rest tick hc body => rw [State.evicted_session, hp]; rfl
  | trans _ _ ih ih' => exact ih' (ih hp)
  | _ => exact hp

theorem Storing.journalLaw {s t : State} (h : Storing s t) (hj : s.journal.Law) : t.journal.Law := by
  induction h with
  | quiet h => exact Journal.law_of_stored h.journal hj
  | push s tick hc body room => exact Journal.push_law hj.nextSeq_ne_zero hj.consecutive room tick hc body
  | evict s e rest tick hc body he => exact hj.evict he tick hc body
  | count => exact hj
  | empty => exact hj
  | trans _ _ ih ih' => exact ih' (ih hj)

theorem Storing.readersLaw {s t : State} (h : Storing s t) (hj : s.journal.Law) (hr : s.ReadersLaw) : t.ReadersLaw := by
  induction h with
  | @quiet s t h =>
    intro p y hy
    have hp := h.readers p
    rw [hy] at hp
    obtain ⟨x, hx, he⟩ := Option.map_eq_some_iff.mp hp.symm
    exact Session.law_of_stored h.journal (Session.law_of_reader he.symm (hr p x hx))
  | push s tick hc body => exact fun p x hx => (hr p x hx).push hj tick hc body
  | evict s e rest tick hc body he =>
    intro p y hy
    rw [State.evicted_session] at hy
    obtain ⟨x, hx, rfl⟩ := Option.map_eq_some_iff.mp hy
    exact (hr p x hx).passRemoved hj he tick hc body
  | count => exact hr
  | empty => exact hr
  | trans k _ ih ih' => exact ih' (k.journalLaw hj) (ih hj hr)

theorem Storing.blockCounters {s t : State} (h : Storing s t) (hs : s.BlockCounters) : t.BlockCounters := by
  induction h with
  | quiet h => exact h.counters hs
  | trans _ _ ih ih' => exact ih' (ih hs)
  | _ => exact ⟨hs.links, hs.portC, hs.dets, hs.engines, hs.captures⟩

theorem satInc_le (limit n : Nat) : satInc limit n ≤ limit := min_le_left _ _
theorem satAdd_le (limit n k : Nat) : satAdd limit n k ≤ limit := min_le_left _ _

theorem Session.passRemoved_overrun_le {x : Session} (next : W32) (e : Entry) (h : x.overrunCount ≤ limit16) :
    (x.passRemoved next e).overrunCount ≤ limit16 := by
  simp only [Session.passRemoved]
  split
  · exact satInc_le _ _
  · exact h

theorem LossTally.count_le {l : LossTally} (h : ∀ c, l.counts.get c ≤ limit16) (cls : EntryClass) (tick : W32) (c : EntryClass) :
    (l.count cls tick).counts.get c ≤ limit16 := by
  simp only [LossTally.count, PerClass.get_set]
  split
  · exact satInc_le _ _
  · exact h c

theorem Storing.readerCounters {s t : State} (h : Storing s t) (hs : s.ReaderCounters) : t.ReaderCounters := by
  induction h with
  | @quiet s t h =>
    refine ⟨fun c => ?_, fun p y hy => ?_⟩
    · exact h.tally ▸ hs.tally c
    · have hp := h.readers p
      rw [hy] at hp
      obtain ⟨x, hx, he⟩ := Option.map_eq_some_iff.mp hp.symm
      exact Session.overrunCount_of_reader he.symm ▸ hs.overruns p x hx
  | push => exact ⟨hs.tally, hs.overruns⟩
  | evict s e rest tick hc body he =>
    refine ⟨hs.tally, fun p y hy => ?_⟩
    rw [State.evicted_session] at hy
    obtain ⟨x, hx, rfl⟩ := Option.map_eq_some_iff.mp hy
    exact x.passRemoved_overrun_le _ _ (hs.overruns p x hx)
  | count s tick body => exact ⟨LossTally.count_le hs.tally _ _, hs.overruns⟩
  | empty => exact ⟨fun c => by simp [State.emptyTally, LossTally.empty], hs.overruns⟩
  | trans _ _ ih ih' => exact ih' (ih hs)

/-- What R17 promises a session in HOLD: not overrun, and each entry that it pinned still stored and pinned. -/
def State.Protects (s : State) (p : Port) (t : State) : Prop :=
  ∀ x, s.session p = some x → ∃ y, t.session p = some y ∧ y.overrunCount = x.overrunCount
    ∧ ∀ e ∈ s.journal.entries, x.pinsEntry s.journal.nextSeq e = true → e ∈ t.journal.entries ∧ y.pinsEntry t.journal.nextSeq e = true

theorem State.Protects.trans {s t u : State} {p : Port} (h : s.Protects p t) (k : t.Protects p u) : s.Protects p u := by
  intro x hx
  obtain ⟨y, hy, hxy, hst⟩ := h x hx
  obtain ⟨z, hz, hyz, htu⟩ := k y hy
  refine ⟨z, hz, hyz.trans hxy, fun e he hp => ?_⟩
  obtain ⟨het, hpt⟩ := hst e he hp
  exact htu e het hpt

/-- The HOLD session does not pin an entry that is not held back (R16, R17). -/
theorem State.not_pinned_of_free {s : State} {e : Entry} {p : Port} {x : Session} (h : s.heldBack e = false) (ht : s.token = some p)
    (hx : s.session p = some x) : x.pinsEntry s.journal.nextSeq e = false := by
  rw [← Bool.not_eq_true, State.heldBack_iff] at h
  rw [← Bool.not_eq_true]
  exact fun hp => h ⟨p, x, ht, hx, hp⟩

theorem Storing.protects {s t : State} {p : Port} (h : Storing s t) (hj : s.journal.Law) (hr : s.ReadersLaw)
    (ht : s.token = some p) : s.Protects p t := by
  induction h with
  | @quiet s t h =>
    intro x hx
    obtain ⟨y, hy, he⟩ := h.session hx
    refine ⟨y, hy, Session.overrunCount_of_reader he, fun e hm hp => ⟨h.entries ▸ hm, ?_⟩⟩
    rw [Session.pinsEntry_of_reader he, h.nextSeq, hp]
  | push s tick hc body =>
    intro x hx
    exact ⟨x, hx, rfl, fun e he hp => ⟨List.mem_append_left _ he, Session.pinsEntry_push (hr p x hx) hj he hp⟩⟩
  | evict s e rest tick hc body he free =>
    intro x hx
    have hnot := State.not_pinned_of_free free ht hx
    refine ⟨x.passRemoved s.journal.nextSeq e, by rw [State.evicted_session, hx]; rfl,
      Session.passRemoved_overrunCount hnot, fun f hf hp => ?_⟩
    have hrest : f ∈ rest := by
      rw [he] at hf
      cases hf with
      | head => rw [hnot] at hp; cases hp
      | tail _ hf => exact hf
    exact ⟨List.mem_append_left _ hrest, Session.pinsEntry_passRemoved (hr p x hx) hj he hrest hp⟩
  | count => exact fun x hx => ⟨x, hx, rfl, fun e he hp => ⟨he, hp⟩⟩
  | empty => exact fun x hx => ⟨x, hx, rfl, fun e he hp => ⟨he, hp⟩⟩
  | trans k _ ih ih' => exact (ih hj hr ht).trans (ih' (k.journalLaw hj) (k.readersLaw hj hr) (k.token.trans ht))

/-! ### The course of a command -/

/-- A session opened: its record, and the HOLD token if it asked for it (R25, R26, R172). -/
def State.opened (s : State) (p : Port) (x : Session) (hold : Bool) : State :=
  if hold then { s.setSession p (some x) with token := some p } else s.setSession p (some x)

/-- What one command does: sessions move themselves, or appends are taken, or a session is opened or ended with appends before and after. -/
inductive Course (s t : State) : Prop
  | still (h : Still s t)
  | storing (h : Storing s t)
  | opens {a : State} {p : Port} {x : Session} {hold : Bool} (before : Storing s a) (closed : a.session p = none)
      (law : a.journal.Law → x.Law a.journal) (count : x.overrunCount = 0) (after : Storing (a.opened p x hold) t)
  | ends {a : State} {p : Port} (before : Storing s a) (after : Storing (a.discardSession p) t)

theorem Quiet.course {s t : State} (h : Quiet s t) : Course s t := .storing (.quiet h)

theorem Course.refl (s : State) : Course s s := (Quiet.refl s).course

/-- A course with quiet work before it. -/
theorem Quiet.then {s a t : State} (h : Quiet s a) (k : Course a t) : Course s t := by
  cases k with
  | still k => exact .still (h.still.trans k)
  | storing k => exact .storing (.trans (.quiet h) k)
  | opens before closed law count after => exact .opens (.trans (.quiet h) before) closed law count after
  | ends before after => exact .ends (.trans (.quiet h) before) after

/-- A course with quiet work after it. -/
theorem Course.quiet {s a t : State} (h : Course s a) (k : Quiet a t) : Course s t := by
  cases h with
  | still h => exact .still (h.trans k.still)
  | storing h => exact .storing (h.trans (.quiet k))
  | opens before closed law count after => exact .opens before closed law count (after.trans (.quiet k))
  | ends before after => exact .ends before (after.trans (.quiet k))

end Sys2Proof.Machine
end

section
/-! SUPPORT. The updates that no reader notices, and the blocks' work made of them: the Front End and the Detector Bank. -/

namespace Sys2Proof.Machine

/-! ### Updates of the state -/

theorem State.drive_quiet (s : State) : Quiet s s.drive := .of_watched rfl
theorem State.hand_quiet (s : State) (o : Source) (tick hc : W32) (body : EntryBody) : Quiet s (s.hand o tick hc body) := .of_watched rfl
theorem State.handNow_quiet (s : State) (o : Source) (body : EntryBody) : Quiet s (s.handNow o body) := .of_watched rfl
theorem State.raiseTrigger_quiet (s : State) (o : TrigSource) (tick hc : W32) : Quiet s (s.raiseTrigger o tick hc) := .of_watched rfl
theorem State.setCapInbox_quiet (s : State) (l : List CapEvent) : Quiet s (s.setCapInbox l) := .of_watched rfl
theorem State.setAcc_quiet (s : State) (a : AccId) (r : Accumulator) : Quiet s (s.setAcc a r) := .of_watched rfl
theorem State.setStage_quiet (s : State) (t : Tenure) (g : Table) : Quiet s (s.setStage t g) := .of_watched rfl
theorem State.setSelect_quiet (s : State) (p : SyncId) (low : Bool) : Quiet s (s.setSelect p low) := .of_watched rfl

/-- A session's update that the journal's rules do not read. -/
theorem State.onSession_quiet (s : State) (p : Port) {f : Session → Session} (hf : ∀ x, (f x).reader = x.reader) :
    Quiet s (s.onSession p f) := by
  refine .setSessions _ fun q => ?_
  simp only [State.session, PerPort.get_set]
  split
  · rename_i h
    subst h
    cases s.sessions.get q <;> simp [hf]
  · rfl

theorem State.onSessions_quiet (s : State) {f : Port → Session → Session} (hf : ∀ p x, (f p x).reader = x.reader) :
    Quiet s (s.onSessions f) := by
  refine .setSessions _ fun q => ?_
  simp only [State.session, PerPort.get_mapWith]
  cases s.sessions.get q <;> simp [hf]

theorem State.setSession_quiet {s : State} {p : Port} {x y : Session} (hx : s.session p = some x) (hr : y.reader = x.reader) :
    Quiet s (s.setSession p (some y)) := by
  refine .setSessions _ fun q => ?_
  simp only [State.session, PerPort.get_set]
  split
  · rename_i h
    subst h
    rw [State.session] at hx
    rw [hx, Option.map_some, Option.map_some, hr]
  · rfl

theorem State.latch_quiet (s : State) (p : Port) (f : Latches → Latches) : Quiet s (s.latch p f) := s.onSession_quiet p fun _ => rfl

theorem State.latchHosts_quiet (s : State) (h : HostSet) (f : Latches → Latches) : Quiet s (s.latchHosts h f) :=
  s.onSessions_quiet fun p x => by split <;> rfl

/-- Quiet work done once for each of several things. -/
theorem foldl_quiet {α : Type} {f : State → α → State} (h : ∀ s a, Quiet s (f s a)) (l : List α) (s : State) :
    Quiet s (l.foldl f s) := by
  induction l generalizing s with
  | nil => exact .refl s
  | cons a l ih => exact (h s a).trans (ih (f s a))

/-! ### A command of the running part -/

theorem State.whenRunning_course {s t : State} {f : State → State} (h : s.whenRunning f = .next t) (k : Course s (f s)) : Course s t := by
  rcases s.whenRunning_cases f with ⟨-, e⟩ | ⟨-, e⟩ <;> (rw [e] at h; cases h)
  · exact k.quiet (f s).drive_quiet
  · exact s.drive_quiet.course

/-! ### The Front End -/

theorem State.closeHalfCycle_quiet (s : State) (raw : Frame) (polarity : Polarity) (synthetic : Bool) :
    Quiet s (s.closeHalfCycle raw polarity synthetic) := by
  obtain ⟨line, run, event, hl⟩ : ∃ line run event, lineAfter s.front.lineState s.front.genuineRun synthetic = (line, run, event) :=
    ⟨_, _, _, rfl⟩
  simp only [State.closeHalfCycle, hl]
  cases event <;> exact .of_watched rfl

theorem State.joinFrame_quiet (s : State) (f : Frame) : Quiet s (s.joinFrame f) := .of_watched rfl

/-- A frame makes a genuine close, or a synthetic one, or joins the open half-cycle. -/
theorem State.closeOrJoin_quiet (s : State) (genuine synthetic : Prop) [Decidable genuine] [Decidable synthetic] (raw f : Frame)
    (polarity : Polarity) : Quiet s (if genuine then s.closeHalfCycle raw polarity false
      else if synthetic then s.closeHalfCycle raw .noSign true else s.joinFrame f) := by
  split
  · exact s.closeHalfCycle_quiet _ _ _
  · split
    · exact s.closeHalfCycle_quiet _ _ _
    · exact s.joinFrame_quiet _

theorem State.leaveSample_quiet (s : State) (negative : Option Bool) (history : List W16) :
    Quiet s { s with front := { s.front with prevNegative := negative, uHistory := history } } := .of_watched rfl

theorem State.takeFrame_quiet (s : State) (raw : Frame) : Quiet s (s.takeFrame raw) := by
  have handed : Quiet s { s with store := { s.store with inbox := s.store.inbox
      ++ [CapEvent.frame { frame := scaleFrame s.front.s0 raw, tick := s.front.tick, hc := s.front.hc }] } } := .of_watched rfl
  exact (handed.trans (State.closeOrJoin_quiet _ _ _ _ _ _)).trans (State.leaveSample_quiet _ _ _)

/-! ### The Detector Bank -/

theorem Detector.Bounded.cleared {x : Detector} (h : x.Bounded) (state : DetState) : (x.cleared state).Bounded := by
  obtain ⟨-, -, hcount, hsum⟩ := h
  exact ⟨Nat.zero_le _, Nat.zero_le _, hcount, hsum⟩

theorem Detector.Bounded.tallied {x : Detector} (h : x.Bounded) (duration : Nat) : (x.tallied duration).Bounded := by
  obtain ⟨hage, hspan, -, -⟩ := h
  exact ⟨hage, hspan, satInc_le _ _, satAdd_le _ _ _⟩

/-- Judging keeps the age and the span within 24 bits (R67). -/
theorem Detector.Bounded.judge {x : Detector} (h : x.Bounded) (d : DetId) (input : Nat) (hc : W32) : (judge d input hc x).1.Bounded := by
  obtain ⟨hage, hspan, hcount, hsum⟩ := h
  cases hs : x.state with
  | idle => simpa only [Machine.judge, hs] using ⟨hage, hspan, hcount, hsum⟩
  | quiet =>
    simp only [Machine.judge, hs, judgeQuiet]
    split
    · exact ⟨(by decide : 1 ≤ limit24), (by decide : 1 ≤ limit24), hcount, hsum⟩
    · exact ⟨hage, hspan, hcount, hsum⟩
  | onset =>
    simp only [Machine.judge, hs, judgeOnset]
    split
    · exact ⟨satInc_le _ _, satInc_le _ _, hcount, hsum⟩
    · exact Detector.Bounded.cleared ⟨hage, hspan, hcount, hsum⟩ _
  | active =>
    simp only [Machine.judge, hs, judgeActive]
    split
    · exact ⟨satInc_le _ _, hspan, hcount, hsum⟩
    · exact ⟨satInc_le _ _, satInc_le _ _, hcount, hsum⟩
  | release =>
    simp only [Machine.judge, hs, judgeRelease]
    split
    · exact ⟨satInc_le _ _, hspan, hcount, hsum⟩
    · exact ⟨satInc_le _ _, satInc_le _ _, hcount, hsum⟩

theorem Detector.Bounded.movedBy {x : Detector} (h : x.Bounded) (old new : DetCfg) : (x.movedBy old new).Bounded := by
  have h' : Detector.Bounded { x with cfg := new } := h
  simp only [Detector.movedBy]
  split
  · exact h'.cleared _
  · split
    · exact h'.cleared _
    · split
      · exact h
      · split
        · split
          · exact h'.cleared _
          · obtain ⟨hage, -, hcount, hsum⟩ := h
            exact ⟨hage, hage, hcount, hsum⟩
          · exact h
        · exact h

theorem State.setDet_quiet {s : State} (d : DetId) {x : Detector} (hx : (∀ d, (s.det.dets.get d).Bounded) → x.Bounded) :
    Quiet s (s.setDet d x) := by
  refine .setDet _ fun h i => ?_
  simp only [PerDet.get_set]
  split
  · exact hx h
  · exact h i

theorem State.openEpisode_quiet {s : State} (d : DetId) {x : Detector} (close : HandedClose)
    (hx : (∀ d, (s.det.dets.get d).Bounded) → x.Bounded) : Quiet s (s.openEpisode d x close) := by
  have opened : Quiet s (s.setDet d { x with state := .active, run := 0, episode := s.det.nextEpisode }) :=
    s.setDet_quiet d fun h => hx h
  simp only [State.openEpisode]
  split
  · exact (opened.trans (.of_watched (by rfl))).trans (State.raiseTrigger_quiet _ _ _ _)
  · exact opened.trans (.of_watched rfl)

theorem State.closeEpisode_quiet {s : State} (d : DetId) {x : Detector} (close : HandedClose)
    (hx : (∀ d, (s.det.dets.get d).Bounded) → x.Bounded) : Quiet s (s.closeEpisode d x close) := by
  have closed : Quiet s (s.setDet d ((x.tallied x.span).cleared .quiet)) := s.setDet_quiet d fun h => ((hx h).tallied _).cleared _
  simp only [State.closeEpisode]
  split
  · exact (closed.trans (State.hand_quiet _ _ _ _ _)).trans (State.raiseTrigger_quiet _ _ _ _)
  · exact closed.trans (State.hand_quiet _ _ _ _ _)

theorem State.judgeDetector_quiet (close : HandedClose) (s : State) (d : DetId) : Quiet s (s.judgeDetector close d) := by
  have hx : (∀ d, (s.det.dets.get d).Bounded) →
      (Machine.judge d (d.input close.summary) close.summary.hc (s.det.dets.get d)).1.Bounded := fun h => (h d).judge _ _ _
  unfold State.judgeDetector
  split <;> (rename_i hj; rw [hj] at hx)
  · exact s.setDet_quiet d hx
  · exact s.openEpisode_quiet d close hx
  · exact s.closeEpisode_quiet d close hx

theorem State.updateDetector_quiet (close : HandedClose) (s : State) (d : DetId) : Quiet s (s.updateDetector close d) := by
  simp only [State.updateDetector]
  split
  · exact .refl s
  · split
    · have cut := s.setDet_quiet d (x := (Detector.tallied { s.det.dets.get d with cfg := s.config.committed.det.get d }
        (cutDuration { s.det.dets.get d with cfg := s.config.committed.det.get d } close.summary.hc)).cleared .idle)
        fun h => Detector.Bounded.cleared (Detector.Bounded.tallied (h d) _) .idle
      exact cut.trans (State.hand_quiet _ _ _ _ _)
    · exact s.setDet_quiet d fun h => (h d).movedBy _ _

theorem State.takeDetectorClose_quiet (s : State) (close : HandedClose) : Quiet s (s.takeDetectorClose close) :=
  (foldl_quiet (State.updateDetector_quiet close) _ s).trans (foldl_quiet (State.judgeDetector_quiet close) _ _)

end Sys2Proof.Machine
end

section
/-! SUPPORT. The quiet work of the Capture Store and of the Energy Block. -/

namespace Sys2Proof.Machine

/-! ### The Capture Store -/

theorem CaptureStore.bounded_iff (st : CaptureStore) :
    st.Bounded ↔ (∀ c ∈ st.sealedCaptures, c.extra ≤ limit8) ∧ ∀ c, st.mode = .post c → c.extra ≤ limit8 := by
  have hr : ∀ c, c ∈ st.recording.toList ↔ st.mode = .post c := by
    intro c
    cases hm : st.mode <;> simp [CaptureStore.recording, hm, eq_comm]
  constructor
  · exact fun h => ⟨fun c hc => h c (List.mem_append_left _ hc), fun c hc => h c (List.mem_append_right _ ((hr c).mpr hc))⟩
  · rintro ⟨h1, h2⟩ c hc
    rcases List.mem_append.mp hc with hc | hc
    · exact h1 c hc
    · exact h2 c ((hr c).mp hc)

/-- Another mode of the store: the count of the capture that it records must be within its range. -/
theorem Quiet.setMode {s₀ s : State} (h : Quiet s₀ s) (m : StoreMode) (hm : s₀.BlockCounters → ∀ c, m = .post c → c.extra ≤ limit8) :
    Quiet s₀ (s.setMode m) :=
  h.setStore _ fun hs hb => (CaptureStore.bounded_iff _).mpr ⟨((CaptureStore.bounded_iff _).mp hb).1, hm hs⟩

/-- Another mode of the store, with no capture in it. -/
theorem State.setMode_quiet (s : State) {m : StoreMode} (hm : ∀ c, m ≠ .post c) : Quiet s (s.setMode m) :=
  (Quiet.refl s).setMode m fun _ c hc => absurd hc (hm c)

/-- Another seal order, whose captures have their counts in range. -/
theorem Quiet.setSealed {s₀ s : State} (h : Quiet s₀ s) (l : List Capture)
    (hl : s₀.BlockCounters → s.store.Bounded → ∀ c ∈ l, c.extra ≤ limit8) :
    Quiet s₀ { s with store := { s.store with sealedCaptures := l } } :=
  h.setStore _ fun hs hb => (CaptureStore.bounded_iff _).mpr ⟨hl hs hb, ((CaptureStore.bounded_iff _).mp hb).2⟩

theorem State.reclaim_quiet (s : State) (c : Capture) (tick hc : W32) : Quiet s (s.reclaim c tick hc) :=
  have left : Quiet s { s with store := { s.store with sealedCaptures := s.store.sealedCaptures.filter fun x => x.id != c.id } } :=
    (Quiet.refl s).setSealed _ fun _ h x hx => ((CaptureStore.bounded_iff _).mp h).1 x (List.mem_of_mem_filter hx)
  (left.trans (State.hand_quiet _ _ _ _ _)).trans (State.latchHosts_quiet _ _ _)

theorem State.takeSlot_quiet (s : State) (busy : List SlotId) (tick hc : W32) : Quiet s (s.takeSlot busy tick hc).1 := by
  rcases s.takeSlot_cases busy tick hc with ⟨i, -, h⟩ | ⟨-, ⟨-, h⟩ | ⟨c, -, h⟩⟩ <;> rw [h]
  · exact .refl s
  · exact .refl s
  · exact s.reclaim_quiet c tick hc

theorem State.armStore_quiet (s : State) (tick hc : W32) : Quiet s (s.armStore tick hc) := by
  have slot := s.takeSlot_quiet [] tick hc
  rcases s.armStore_cases tick hc with ⟨t, i, ht, h⟩ | ⟨t, ht, h⟩ <;> (rw [h]; rw [ht] at slot)
  · exact slot.trans (t.setMode_quiet fun _ => by simp)
  · exact slot.trans (t.setMode_quiet fun _ => by simp)

theorem State.retryStarved_quiet (s : State) : Quiet s s.retryStarved := by
  rcases s.retryStarved_cases with ⟨-, h⟩ | ⟨-, h⟩ <;> rw [h]
  · exact s.armStore_quiet _ _
  · exact .refl s

theorem Quiet.completeCapture {s₀ s : State} (h : Quiet s₀ s) {c : Capture} (tick hc : W32)
    (hx : s₀.BlockCounters → c.extra ≤ limit8) : Quiet s₀ (s.completeCapture c tick hc) := by
  have sealed : Quiet s₀ { s with store := { s.store with
      sealedCaptures := s.store.sealedCaptures ++ [{ c with continueFlag := false, holders := s.captureHolders }] } } := by
    refine h.setSealed _ fun hs hb x hm => ?_
    rcases List.mem_append.mp hm with hm | hm
    · exact ((CaptureStore.bounded_iff _).mp hb).1 x hm
    · rw [List.mem_singleton.mp hm]; exact hx hs
  simp only [State.completeCapture]
  split
  · exact (sealed.trans (State.hand_quiet _ _ _ _ _)).trans (State.armStore_quiet _ _ _)
  · exact (sealed.trans (State.hand_quiet _ _ _ _ _)).trans (State.setMode_quiet _ fun _ => by simp)

theorem Quiet.partFull {s₀ s : State} (h : Quiet s₀ s) {c : Capture} (tick hc : W32) (hx : s₀.BlockCounters → c.extra ≤ limit8) :
    Quiet s₀ (s.partFull c tick hc) := by
  have slot := h.trans (s.takeSlot_quiet c.slots tick hc)
  unfold State.partFull
  split
  · split <;> (rename_i ht; rw [ht] at slot)
    · exact slot.setMode _ fun hs c' hc' => by cases hc'; exact hx hs
    · exact slot.completeCapture _ _ hx
  · exact h.completeCapture _ _ hx

/-- The capture that a store records has its count in range. -/
theorem State.BlockCounters.recording {s : State} (h : s.BlockCounters) {c : Capture} (hm : s.store.mode = .post c) :
    c.extra ≤ limit8 := ((CaptureStore.bounded_iff _).mp h.captures).2 c hm

theorem State.captureFrame_quiet (s : State) (f : StampedFrame) : Quiet s (s.captureFrame f) := by
  unfold State.captureFrame
  split
  · exact s.setMode_quiet fun _ => by simp
  · rename_i c hm
    simp only []
    split
    · exact (Quiet.refl s).partFull _ _ fun h => show c.extra ≤ limit8 from h.recording hm
    · exact (Quiet.refl s).setMode _ fun h c' hc' => by cases hc'; exact show c.extra ≤ limit8 from h.recording hm
  · exact .refl s
  · exact .refl s

theorem State.startCapture_quiet (s : State) (slot : SlotId) (ring : List Frame) (source : TrigSource) (tick hc : W32) :
    Quiet s (s.startCapture slot ring source tick hc) :=
  (Quiet.refl s).setStore _ fun _ h => (CaptureStore.bounded_iff _).mpr
    ⟨((CaptureStore.bounded_iff _).mp h).1, fun c hc => by cases hc; exact Nat.zero_le _⟩

/-- A trigger beyond the list's room is counted up to 255 (R89). -/
theorem Capture.joined_extra_le {c : Capture} (h : c.extra ≤ limit8) (source : TrigSource) (hc : W32) :
    (c.joined source hc).extra ≤ limit8 := by
  have hs := satInc_le limit8 c.extra
  simp only [Capture.joined]
  split <;> split <;> assumption

theorem State.takeTrigger_quiet (s : State) (source : TrigSource) (tick hc : W32) : Quiet s (s.takeTrigger source tick hc) := by
  unfold State.takeTrigger
  split
  · exact s.startCapture_quiet _ _ _ _ _
  · rename_i c hm
    exact (Quiet.refl s).setMode _ fun h c' hc' => by cases hc'; exact Capture.joined_extra_le (h.recording hm) _ _
  · exact s.hand_quiet _ _ _ _
  · exact s.hand_quiet _ _ _ _

theorem State.takeS2_quiet (s : State) (new : CapCfg) : Quiet s (s.takeS2 new) := by
  have taken : Quiet s { s with store := { s.store with s2 := new } } := .of_watched rfl
  simp only [State.takeS2]
  split
  · split
    · exact taken.trans (State.setMode_quiet _ fun _ => by simp)
    · exact taken.trans (State.setMode_quiet _ fun _ => by simp)
    · exact taken
    · exact taken
  · split
    · split
      · exact taken.trans (State.armStore_quiet _ _ _)
      · exact taken
    · split
      · exact taken
      · exact taken.trans (State.retryStarved_quiet _)

/-- Sealed captures changed without their counts. -/
theorem State.mapSealed_quiet (s : State) {f : Capture → Capture} (hf : ∀ c, (f c).extra = c.extra) :
    Quiet s { s with store := { s.store with sealedCaptures := s.store.sealedCaptures.map f } } :=
  (Quiet.refl s).setSealed _ fun _ h c hc => by
    obtain ⟨x, hx, rfl⟩ := List.mem_map.mp hc
    exact hf x ▸ ((CaptureStore.bounded_iff _).mp h).1 x hx

theorem State.dropFromCaptures_quiet (s : State) (p : Port) : Quiet s (s.dropFromCaptures p) :=
  (s.mapSealed_quiet (f := Capture.dropHolder p) fun _ => rfl).trans (State.retryStarved_quiet _)

theorem State.drawTrigger_quiet {s t : State} {g : WaitingTrigger} {rest : List CapEvent} (h : s.drawTrigger = some (g, rest, t)) :
    Quiet s t := by
  unfold State.drawTrigger at h
  split at h
  · cases h
  · cases h; exact .refl s
  · cases h; exact .of_watched rfl

theorem State.senseXtrig_quiet (s : State) (high : Bool) : Quiet s (s.senseXtrig high) := by
  have level : Quiet s { s with store := { s.store with xtrigLevel := high } } := .of_watched rfl
  simp only [State.senseXtrig]
  split
  · exact .refl s
  · split
    · exact level.trans (State.raiseTrigger_quiet _ _ _ _)
    · exact level

/-! ### The Energy Block -/

theorem PulseEngine.Bounded.owe {x : PulseEngine} (h : x.Bounded) (owed width : Nat) (now : W32) (draw : Nat) :
    (x.owe owed width now draw).1.Bounded := by
  obtain ⟨hp, hl⟩ := h
  simp only [PulseEngine.owe]
  split
  · split
    · exact ⟨hp, hl⟩
    · split
      · rename_i hle
        exact ⟨le_trans (Nat.sub_le _ _) hle, hl⟩
      · split
        · exact ⟨le_refl _, hl⟩
        · exact ⟨Nat.sub_le _ _, hl⟩
  · exact ⟨min_le_left _ _, hl⟩

theorem PulseEngine.Bounded.setResidue {x : PulseEngine} (h : x.Bounded) (residue : Nat) :
    PulseEngine.Bounded { x with residue := residue } := h

theorem State.setEngine_quiet {s : State} (e : PulseId) {x : PulseEngine} (hx : (∀ e, (s.energy.engines.get e).Bounded) → x.Bounded) :
    Quiet s (s.setEngine e x) := by
  refine .setEnergy _ fun h i => ?_
  simp only [PerPulse.get_set]
  split
  · exact hx h
  · exact h i

theorem State.countDraw_quiet (s : State) (drawn : Bool) : Quiet s (if drawn then { s with draws := s.draws + 1 } else s) := by
  split
  · exact .of_watched rfl
  · exact .refl s

theorem State.latchLost_quiet (s : State) (lost : Nat) : Quiet s (if lost = 0 then s else s.latchPulseLost) := by
  split
  · exact .refl s
  · exact s.latchHosts_quiet _ _

theorem State.feedEngine_quiet (s : State) (e : PulseId) (quanta : Nat) : Quiet s (s.feedEngine e quanta) := by
  refine ((State.setEngine_quiet e fun h => ?_).trans (State.countDraw_quiet _ _)).trans (State.latchLost_quiet _ _)
  exact ⟨(((h e).setResidue _).owe _ _ _ _).1, satAdd_le _ _ _⟩

theorem State.feedBound_quiet (s : State) (a : AccId) (quanta : Nat) : Quiet s (s.feedBound a quanta) :=
  foldl_quiet (fun s e => by
    split
    · exact s.feedEngine_quiet e quanta
    · exact .refl s) _ s

theorem State.countHalfCycle_quiet (s : State) (a : AccId) (x : Summary) : Quiet s (s.countHalfCycle a x) := by
  simp only [State.countHalfCycle]
  split
  · exact s.setAcc_quiet a _
  · exact (s.setAcc_quiet a _).trans (State.feedBound_quiet _ _ _)

theorem State.workAccumulator_quiet (close : HandedClose) (s : State) (a : AccId) : Quiet s (s.workAccumulator close a) := by
  simp only [State.workAccumulator]
  split
  · exact .refl s
  · split
    · exact (s.setAcc_quiet a _).trans (State.countHalfCycle_quiet _ _ _)
    · split
      · exact (s.setAcc_quiet a _).trans (State.countHalfCycle_quiet _ _ _)
      · exact (s.setAcc_quiet a _).trans (State.hand_quiet _ _ _ _ _)
  · split
    · exact .refl s
    · exact ((s.setAcc_quiet a _).trans (State.hand_quiet _ _ _ _ _)).trans (State.countHalfCycle_quiet _ _ _)

/-- The Energy Block with its engines as they are. -/
theorem State.setEnergy_quiet (s : State) {en : EnergyBlock} (h : en.engines = s.energy.engines) : Quiet s { s with energy := en } :=
  .setEnergy _ fun hb => h ▸ hb

theorem State.completeSnapshot_quiet (s : State) (close : HandedClose) : Quiet s (s.completeSnapshot close) := by
  cases hp : s.energy.pendingSnapshot with
  | none => simpa only [State.completeSnapshot, hp] using .refl s
  | some p =>
    simp only [State.completeSnapshot, hp]
    exact ((s.setEnergy_quiet (by rfl)).trans (State.hand_quiet _ _ _ _ _)).trans (State.latchHosts_quiet _ _ _)

theorem State.takeEnergyClose_quiet (s : State) (close : HandedClose) : Quiet s (s.takeEnergyClose close) :=
  ((foldl_quiet (State.workAccumulator_quiet close) _ s).trans (State.completeSnapshot_quiet _ close)).trans (.of_watched rfl)

theorem State.zeroAccumulator_quiet (s : State) (a : AccId) : Quiet s (s.zeroAccumulator a) :=
  (s.setAcc_quiet a _).trans (State.onSessions_quiet _ fun _ _ => rfl)

/-- Engines cleared with a new S3 and new accumulator records (R108, R123, R124). -/
theorem State.clearEngines_quiet (s : State) (cleared : PulseId → Bool) (s3 : EnergyCfg) (acc : PerAcc Accumulator) :
    Quiet s { s with energy := { s.energy with
      engines := s.energy.engines.mapWith fun e x => if cleared e then x.cleared else x, s3 := s3, acc := acc } } := by
  refine .setEnergy _ fun h e => ?_
  simp only [PerPulse.get_mapWith]
  split
  · exact ⟨Nat.zero_le _, (h e).2⟩
  · exact h e

theorem State.takeS3_quiet (s : State) (new : EnergyCfg) : Quiet s (s.takeS3 new) := by
  refine (foldl_quiet (fun t a => ?_) allAccumulators s).trans (State.clearEngines_quiet _ (engineCleared s.energy.s3 new) _ _)
  split
  · exact t.zeroAccumulator_quiet a
  · exact .refl t

theorem State.freezeEnergy_quiet (s : State) : Quiet s s.freezeEnergy := .of_watched rfl

theorem PulseEngine.Bounded.afterGap {x : PulseEngine} (h : x.Bounded) (width : Nat) (now : W32) : (x.afterGap width now).Bounded := by
  unfold PulseEngine.afterGap
  split
  · exact h
  · exact ⟨le_trans (Nat.sub_le _ _) h.1, h.2⟩

end Sys2Proof.Machine
end

section
/-! SUPPORT. The quiet work of the Lease Arbiter, the Configuration Controller and the ports, and the end of a session. -/

namespace Sys2Proof.Machine

/-! ### The Lease Arbiter -/

theorem State.passLease_quiet (s : State) : Quiet s s.passLease := by
  rcases s.passLease_cases with ⟨-, h⟩ | ⟨w, rest, -, h⟩ <;> rw [h]
  · exact .of_watched rfl
  · have granted : Quiet s { s with lease := some (s.newTenure w.host w.seconds), queue := rest } := .of_watched rfl
    exact (granted.trans (State.handNow_quiet _ _ _)).trans (State.latch_quiet _ _ _)

theorem State.endTenure_quiet (s : State) (event : LeaseEventKind) (holder : Port) : Quiet s (s.endTenure event holder) :=
  (s.handNow_quiet _ _).trans (State.passLease_quiet _)

theorem State.forfeitLease_quiet (s : State) (p : Port) : Quiet s (s.forfeitLease p) := by
  rcases s.forfeitLease_cases p with ⟨-, h⟩ | ⟨-, h⟩ <;> rw [h]
  · exact s.endTenure_quiet _ _
  · exact .of_watched rfl

theorem State.takeLease_quiet (s : State) (p : Port) (seconds : Nat) (wait : Bool) : Quiet s (s.takeLease p seconds wait).1 := by
  cases hl : s.lease with
  | none =>
    have taken : Quiet s { s with lease := some (s.newTenure p seconds) } := .of_watched rfl
    simp only [State.takeLease, hl]
    exact taken.trans (State.handNow_quiet _ _ _)
  | some t =>
    simp only [State.takeLease, hl]
    split
    · exact .of_watched rfl
    · split
      · exact .refl s
      · exact .of_watched rfl

/-! ### The Configuration Controller -/

theorem State.installTable_quiet (s : State) (new : Table) : Quiet s (s.installTable new) := .of_watched rfl

theorem State.handCommitted_quiet (s : State) (old new : Table) : Quiet s (s.handCommitted old new) := by
  have handS2 : Quiet s (if old.cap = new.cap then s
      else { s with store := { s.store with inbox := s.store.inbox ++ [CapEvent.config new.cap] } }) := by
    split
    · exact .refl s
    · exact .of_watched rfl
  exact handS2.trans (State.setEnergy_quiet _ (by rfl))

theorem State.scrub_quiet (s : State) : Quiet s s.scrub := by
  simp only [State.scrub]
  split
  · exact .of_watched rfl
  · exact .of_watched rfl

/-! ### Counters of the links -/

theorem LinkCounters.zero_bounded : LinkCounters.zero.Bounded :=
  ⟨Nat.zero_le _, Nat.zero_le _, Nat.zero_le _, Nat.zero_le _, Nat.zero_le _⟩
theorem LinkCounters.Bounded.addBadLead {c : LinkCounters} (h : c.Bounded) : c.addBadLead.Bounded := ⟨satInc_le _ _, h.2⟩
theorem LinkCounters.Bounded.addCut {c : LinkCounters} (h : c.Bounded) : c.addCut.Bounded := by
  obtain ⟨hlead, -, hrest⟩ := h
  exact ⟨hlead, satInc_le _ _, hrest⟩
theorem LinkCounters.Bounded.addTimeout {c : LinkCounters} (h : c.Bounded) : c.addTimeout.Bounded := by
  obtain ⟨hlead, hcut, -, hrest⟩ := h
  exact ⟨hlead, hcut, satInc_le _ _, hrest⟩
theorem LinkCounters.Bounded.addLength {c : LinkCounters} (h : c.Bounded) : c.addLength.Bounded := by
  obtain ⟨hlead, hcut, htimeout, -, hcheck⟩ := h
  exact ⟨hlead, hcut, htimeout, satInc_le _ _, hcheck⟩
theorem LinkCounters.Bounded.addCheckFail {c : LinkCounters} (h : c.Bounded) : c.addCheckFail.Bounded := by
  obtain ⟨hlead, hcut, htimeout, hlength, -⟩ := h
  exact ⟨hlead, hcut, htimeout, hlength, satInc_le _ _⟩

theorem State.onLink_quiet (s : State) (p : SyncId) {f : SyncLink → SyncLink} (hf : ∀ k, k.Bounded → (f k).Bounded) :
    Quiet s (s.onLink p f) := by
  refine .setLinks _ fun h i => ?_
  simp only [PerSync.get_set]
  split
  · exact hf _ (h p)
  · exact h i

/-- A port's link changed with its counters as they are. -/
theorem State.onLink_keeps_quiet (s : State) (p : SyncId) {f : SyncLink → SyncLink}
    (hc : ∀ k, (f k).counters = k.counters) (hu : ∀ k, (f k).unfetched = k.unfetched) : Quiet s (s.onLink p f) :=
  s.onLink_quiet p fun k h => ⟨hc k ▸ h.1, hu k ▸ h.2⟩

theorem State.onPortC_quiet (s : State) {f : AsyncLink → AsyncLink} (hf : s.portC.Bounded → (f s.portC).Bounded) :
    Quiet s (s.onPortC f) := .setPortC _ hf

theorem State.answer_quiet (s : State) (p : Port) (r : Response) : Quiet s (s.answer p r) := by
  have answered : ∀ k : SyncLink, k.Bounded → (k.answer r).Bounded := by
    intro k h
    refine ⟨h.1, ?_⟩
    simp only [SyncLink.answer]
    split
    · exact satInc_le _ _
    · exact h.2
  cases p with
  | a => exact s.onLink_quiet .a answered
  | b => exact s.onLink_quiet .b answered
  | c => exact s.onPortC_quiet (f := fun k => { k with sending := some r }) id

theorem State.onCounters_quiet (s : State) (p : Port) {f : LinkCounters → LinkCounters} (hf : ∀ c, c.Bounded → (f c).Bounded) :
    Quiet s (s.onCounters p f) := by
  cases p with
  | a => exact s.onLink_quiet .a (f := fun k => { k with counters := f k.counters }) fun k h => ⟨hf _ h.1, h.2⟩
  | b => exact s.onLink_quiet .b (f := fun k => { k with counters := f k.counters }) fun k h => ⟨hf _ h.1, h.2⟩
  | c => exact s.onPortC_quiet (f := fun k => { k with counters := f k.counters }) fun h => ⟨hf _ h.1, h.2⟩

theorem State.clearCounters_quiet (s : State) (p : Port) : Quiet s (s.clearCounters p) := by
  have zero := LinkCounters.zero_bounded
  cases p with
  | a => exact s.onLink_quiet .a (f := fun k => { k with counters := .zero, unfetched := 0 }) fun k h => ⟨zero, Nat.zero_le _⟩
  | b => exact s.onLink_quiet .b (f := fun k => { k with counters := .zero, unfetched := 0 }) fun k h => ⟨zero, Nat.zero_le _⟩
  | c => exact s.onPortC_quiet (f := fun k => { k with counters := .zero, overlap := 0 }) fun h => ⟨zero, Nat.zero_le _⟩

theorem State.refuseFrame_quiet (s : State) (p : Port) (tag : Byte) (st : Status) : Quiet s (s.refuseFrame p tag st) := by
  unfold State.refuseFrame
  split
  · exact (s.onCounters_quiet p fun _ h => h.addCheckFail).trans (State.answer_quiet _ _ _)
  · exact s.answer_quiet _ _

theorem State.restartIdle_quiet (s : State) (p : Port) : Quiet s (s.restartIdle p) := s.onSession_quiet p fun _ => rfl

/-! ### Bytes and leads -/

theorem SyncLink.Bounded.deselected {k : SyncLink} (h : k.Bounded) : k.deselected.Bounded := by
  by_cases hp : k.phase = .request
  · simp only [SyncLink.deselected, hp, if_true]
    exact ⟨h.1.addCut, h.2⟩
  · simp only [SyncLink.deselected, hp, if_false]
    exact h

theorem SyncLink.Bounded.firstByte {k : SyncLink} (h : k.Bounded) (now : W32) (b : Byte) : (k.firstByte now b).Bounded := by
  unfold SyncLink.firstByte
  split
  · exact h
  · split
    · exact h
    · exact ⟨h.1.addBadLead, h.2⟩

theorem State.syncGap_quiet (s : State) (p : SyncId) : Quiet s (s.syncGap p) := by
  simp only [State.syncGap]
  split
  · exact s.onLink_quiet p fun k h => ⟨h.1.addTimeout, h.2⟩
  · exact .refl s

theorem State.asyncGap_quiet (s : State) : Quiet s s.asyncGap := by
  unfold State.asyncGap
  split
  · exact s.onPortC_quiet fun h => ⟨h.1.addTimeout, h.2⟩
  · exact .refl s

theorem State.leadSeen_quiet (s : State) (span : Nat) : Quiet s (s.leadSeen span) := by
  have locked : Quiet s (s.onPortC fun k => { k with rateSpan := some span }.startFrame s.nowTick) := s.onPortC_quiet id
  simp only [State.leadSeen]
  split
  · split
    · exact locked
    · exact .refl s
  · split
    · exact .refl s
    · split
      · exact locked
      · exact s.onPortC_quiet fun h => ⟨h.1.addBadLead, h.2⟩
  · exact .refl s

theorem State.huntByte_quiet (s : State) (b : Byte) : Quiet s (s.huntByte b) := by
  unfold State.huntByte
  split
  · exact s.onPortC_quiet id
  · exact s.onPortC_quiet fun h => ⟨h.1.addBadLead, h.2⟩

theorem AsyncLink.broken_bounded (k : AsyncLink) : k.broken.Bounded := ⟨LinkCounters.zero_bounded, Nat.zero_le _⟩

/-! ### The end of a session (R173) -/

theorem State.tearDownBlocks_quiet (s : State) (p : Port) : Quiet s (s.tearDownBlocks p) := by
  have drawn : Quiet s { s with draws := s.draws + 1 } := .of_watched rfl
  simp only [State.tearDownBlocks]
  split
  · exact (drawn.trans (State.forfeitLease_quiet _ _)).trans (State.dropFromCaptures_quiet _ _)
  · split
    · exact (drawn.trans (State.dropFromCaptures_quiet _ _)).trans (State.forfeitLease_quiet _ _)
    · split
      · exact ((drawn.trans (State.handNow_quiet _ _ _)).trans (State.dropFromCaptures_quiet _ _)).trans (State.passLease_quiet _)
      · exact (drawn.trans (State.dropFromCaptures_quiet _ _)).trans (State.forfeitLease_quiet _ _)

theorem State.dropFromSnapshot_quiet (s : State) (p : Port) : Quiet s (s.dropFromSnapshot p) := by
  unfold State.dropFromSnapshot
  split
  · exact .refl s
  · exact s.setEnergy_quiet (by rfl)

/-- A session ends with its teardown, and then its SESSION_EVENT is appended (R173). -/
theorem State.endSession_course (s : State) (p : Port) (event : SessionEventKind) : Course s (s.endSession p event).1 :=
  .ends (.refl s) (.trans (.quiet ((State.tearDownBlocks_quiet _ p).trans (State.dropFromSnapshot_quiet _ p)))
    (State.appendNow_storing _ _))

end Sys2Proof.Machine
end

section
/-! SUPPORT. The course of every request, and of every command. -/

namespace Sys2Proof.Machine

/-! ### Requests of open sessions and of the lease holder -/

theorem State.withSession_course {s : State} {p : Port} {f : Session → State × Reply}
    (h : ∀ x, s.session p = some x → Course s (f x).1) : Course s (s.withSession p f).1 := by
  unfold State.withSession
  split
  · exact .refl s
  · rename_i x hx
    exact h x hx

theorem State.withLease_course {s : State} {p : Port} {f : Tenure → State × Reply} (h : ∀ t, Course s (f t).1) :
    Course s (s.withLease p f).1 := by
  unfold State.withLease
  split
  · exact .refl s
  · split
    · exact h _
    · exact .refl s

/-- Work in which one session moves itself. -/
theorem State.setSession_still {s : State} {p : Port} {x y : Session} (hx : s.session p = some x)
    (hy : x.Repositioned y s.journal) : Still s (s.setSession p (some y)) := by
  refine ⟨⟨rfl, rfl, fun h => ⟨h.links, h.portC, h.dets, h.engines, h.captures⟩⟩, fun q hq => ?_, fun q z hz => ?_⟩
  · have hne : q ≠ p := fun e => by rw [e, hx] at hq; cases hq
    rwa [State.session, State.setSession_sessions, PerPort.get_set_ne _ _ hne]
  · by_cases e : q = p
    · subst e
      rw [hx] at hz
      cases hz
      exact ⟨y, PerPort.get_set_self _ _ _, hy⟩
    · refine ⟨z, ?_, rfl, fun _ h => h⟩
      rwa [State.session, State.setSession_sessions, PerPort.get_set_ne _ _ e]

/-- Work in which the HOLD token changes hands. -/
theorem Still.of_token {s t : State} (h : Beside s t) (hs : t.sessions = s.sessions) : Still s t := by
  have same : ∀ p, t.session p = s.session p := fun p => by rw [State.session, hs]; rfl
  exact ⟨h, fun p hp => (same p).trans hp, fun p x hx => ⟨x, (same p).trans hx, rfl, fun _ h => h⟩⟩

/-! ### The requests on the journal and its readers (chapters 1, 2, 8 and 9) -/

theorem reqOpenSession_course (p : Port) (deadline : Option W32) (start retention : Byte) (s : State) :
    Course s (reqOpenSession p deadline start retention s).1 := by
  unfold reqOpenSession
  split
  · exact .refl s
  · split
    · exact .refl s
    · rename_i hopen
      split
      · exact .refl s
      · have closed : s.session p = none := by simpa using hopen
        refine .opens (p := p) (hold := retention == 1) s.settle_storing ?_
          (fun hj => Session.fresh_law hj deadline (start == 1)) rfl (State.appendNow_storing _ _)
        exact s.settle_storing.closed closed

theorem reqCloseSession_course (p : Port) (s : State) : Course s (reqCloseSession p s).1 :=
  State.withSession_course fun _ _ => s.endSession_course p .closed

theorem reqPortStatus_course (p : Port) (clear : Byte) (s : State) : Course s (reqPortStatus p clear s).1 := by
  unfold reqPortStatus
  split
  · exact .refl s
  · simp only []
    split
    · exact (s.clearCounters_quiet p).course
    · exact .refl s

theorem reqSetAttention_course (p : Port) (mask watermark : Byte) (s : State) : Course s (reqSetAttention p mask watermark s).1 :=
  State.withSession_course fun x hx => by
    split
    · exact .refl s
    · exact Quiet.course (State.setSession_quiet hx rfl)

theorem reqAttentionStatus_course (p : Port) (s : State) : Course s (reqAttentionStatus p s).1 :=
  State.withSession_course fun _ hx => Quiet.course (State.setSession_quiet hx rfl)

theorem reqSetSubscription_course (p : Port) (mask : Byte) (s : State) : Course s (reqSetSubscription p mask s).1 :=
  State.withSession_course fun x hx => .still (State.setSession_still hx (x.subscribe_repositioned _ mask))

theorem reqSetRetention_course (p : Port) (retention : Byte) (s : State) : Course s (reqSetRetention p retention s).1 :=
  State.withSession_course fun _ _ => by
    have same : ∀ t : State, Beside s t → t.sessions = s.sessions → Course s t := fun t h hs => .still (.of_token h hs)
    split
    · exact .refl s
    · split
      · split
        · exact .refl s
        · exact same _ ⟨rfl, rfl, fun h => ⟨h.links, h.portC, h.dets, h.engines, h.captures⟩⟩ rfl
      · split
        · exact same _ ⟨rfl, rfl, fun h => ⟨h.links, h.portC, h.dets, h.engines, h.captures⟩⟩ rfl
        · exact .refl s

theorem reqReadEntries_course (p : Port) (b : Byte) (s : State) : Course s (reqReadEntries p b s).1 :=
  State.withSession_course fun x hx => by
    split
    · exact .refl s
    · exact .still (State.setSession_still hx (x.read_repositioned _ _ _))

theorem reqAckEntries_course (p : Port) (seq : W32) (s : State) : Course s (reqAckEntries p seq s).1 :=
  State.withSession_course fun x hx => by
    simp only []
    split
    · exact .refl s
    · rename_i h0
      split
      · exact .refl s
      · rename_i h1
        split
        · exact .refl s
        · rename_i h2
          exact .still (State.setSession_still hx (x.ack_repositioned _ h0 (by simpa using h1) (by simpa using h2)))

theorem reqRewind_course (p : Port) (s : State) : Course s (reqRewind p s).1 :=
  State.withSession_course fun x hx => .still (State.setSession_still hx (x.rewind_repositioned _))

theorem reqAppendNote_course (p : Port) (data : List Byte) (s : State) : Course s (reqAppendNote p data s).1 := by
  have stored := s.appendNow_storing (.note p data)
  unfold reqAppendNote
  split <;> (rename_i h; rw [h] at stored; exact .storing stored)

/-! ### The other requests -/

theorem reqReadFrames_state (id : W16) (part : Byte) (offset : W16) (count : Byte) (s : State) :
    (reqReadFrames id part offset count s).1 = s := by
  unfold reqReadFrames
  split
  · rfl
  · split
    · rfl
    · split
      · rfl
      · split <;> rfl

theorem reqReleaseCapture_quiet (p : Port) (id : W16) (s : State) : Quiet s (reqReleaseCapture p id s).1 := by
  unfold reqReleaseCapture
  split
  · exact .refl s
  · split
    · exact .refl s
    · split
      · exact .refl s
      · have released := s.mapSealed_quiet (f := fun x => if x.id = id then x.dropHolder p else x) fun x => by split <;> rfl
        simp only []
        split
        · exact released.trans (State.retryStarved_quiet _)
        · exact released

theorem reqStoreStatus_state (id : W16) (s : State) : (reqStoreStatus id s).1 = s := by
  unfold reqStoreStatus
  split
  · rfl
  · split <;> rfl

theorem reqMarkBaseline_course (p : Port) (mask : Byte) (s : State) : Course s (reqMarkBaseline p mask s).1 :=
  State.withSession_course fun x hx => by
    split
    · exact .refl s
    · exact Quiet.course (State.setSession_quiet hx rfl)

theorem reqSnapshot_quiet (p : Port) (s : State) : Quiet s (reqSnapshot p s).1 := by
  unfold reqSnapshot
  split <;> exact s.setEnergy_quiet (by rfl)

theorem reqLeaseTake_quiet (p : Port) (seconds wait : Byte) (s : State) : Quiet s (reqLeaseTake p seconds wait s).1 := by
  simp only [reqLeaseTake]
  split
  · exact s.latch_quiet _ _
  · exact (s.latch_quiet _ _).trans (State.takeLease_quiet _ _ _ _)

theorem reqLeaseRelease_quiet (p : Port) (s : State) : Quiet s (reqLeaseRelease p s).1 := by
  simp only [reqLeaseRelease]
  split
  · exact (s.latch_quiet _ _).trans (State.endTenure_quiet _ _ _)
  · split
    · exact s.latch_quiet _ _
    · exact (s.latch_quiet p Latches.clearLeaseGranted).trans (.of_watched rfl)

theorem reqStageWrite_course (p : Port) (sec record field : Byte) (value : W16) (s : State) :
    Course s (reqStageWrite p sec record field value s).1 :=
  State.withLease_course fun t => by
    split
    · exact .refl s
    · split
      · exact (s.setStage_quiet _ _).course
      · exact .refl s

theorem reqStageRead_course (p : Port) (sec record field : Byte) (s : State) : Course s (reqStageRead p sec record field s).1 :=
  State.withLease_course fun t => by split <;> exact .refl s

theorem reqConfigRead_state (sec record field : Byte) (s : State) : (reqConfigRead sec record field s).1 = s := by
  unfold reqConfigRead
  split <;> rfl

theorem reqCommit_course (p : Port) (s : State) : Course s (reqCommit p s).1 :=
  State.withLease_course fun t => by
    split
    · exact .refl s
    · exact .storing (.trans (.trans (.quiet (s.installTable_quiet _)) (State.appendNow_storing _ _))
        (.quiet (State.handCommitted_quiet _ _ _)))

theorem reqDiscard_course (p : Port) (s : State) : Course s (reqDiscard p s).1 :=
  State.withLease_course fun t => (s.setStage_quiet t _).course

theorem State.clearTallies_quiet (s : State) (chosen : DetId → Bool) :
    Quiet s { s with det := { s.det with dets := s.det.dets.mapWith fun d x => if chosen d then x.clearTally else x } } := by
  refine .setDet _ fun h d => ?_
  simp only [PerDet.get_mapWith]
  split
  · exact ⟨(h d).1, (h d).2.1, Nat.zero_le _, Nat.zero_le _⟩
  · exact h d

theorem reqClearTally_course (p : Port) (mask : Byte) (s : State) : Course s (reqClearTally p mask s).1 :=
  State.withLease_course fun t => by
    split
    · exact .refl s
    · exact .storing (.trans (.quiet (s.clearTallies_quiet fun d => mask.getLsbD d.number)) (State.appendNow_storing _ _))

theorem reqRestart_course (p : Port) (generation : W16) (s : State) : Course s (reqRestart p generation s).1 :=
  State.withLease_course fun t => by
    split
    · exact .refl s
    · exact Quiet.course (.of_watched rfl)

theorem reqDefineReadSet_course (p : Port) (codes : List Byte) (s : State) : Course s (reqDefineReadSet p codes s).1 :=
  State.withSession_course fun x hx => by
    split
    · exact .refl s
    · split
      · exact .refl s
      · exact Quiet.course (State.setSession_quiet hx rfl)

/-- Every request has a course (R176). -/
theorem State.perform_course (s : State) (p : Port) (deadline : Option W32) (r : Request) : Course s (s.perform p deadline r).1 := by
  have same : ∀ {t : State}, t = s → Course s t := fun h => h ▸ .refl s
  cases r with
  | openSession start retention => exact reqOpenSession_course p deadline start retention s
  | closeSession => exact reqCloseSession_course p s
  | portStatus clear => exact reqPortStatus_course p clear s
  | setAttention mask watermark => exact reqSetAttention_course p mask watermark s
  | attentionStatus => exact reqAttentionStatus_course p s
  | setSubscription mask => exact reqSetSubscription_course p mask s
  | setRetention retention => exact reqSetRetention_course p retention s
  | readEntries countAndAck => exact reqReadEntries_course p countAndAck s
  | ackEntries seq => exact reqAckEntries_course p seq s
  | rewind => exact reqRewind_course p s
  | journalStatus => exact State.withSession_course fun _ _ => same rfl
  | appendNote data => exact reqAppendNote_course p data s
  | captureNow => exact (s.takeTrigger_quiet _ _ _).course
  | captureList => exact same rfl
  | readFrames id part offset count => exact same (reqReadFrames_state id part offset count s)
  | releaseCapture id => exact (reqReleaseCapture_quiet p id s).course
  | storeStatus id => exact same (reqStoreStatus_state id s)
  | readEnergy => exact State.withSession_course fun _ _ => same rfl
  | markBaseline mask => exact reqMarkBaseline_course p mask s
  | snapshot => exact (reqSnapshot_quiet p s).course
  | readSnapshot => exact (s.latch_quiet _ _).course
  | pulseStatus => exact (s.latch_quiet _ _).course
  | leaseTake seconds wait => exact (reqLeaseTake_quiet p seconds wait s).course
  | leaseRelease => exact (reqLeaseRelease_quiet p s).course
  | leaseStatus => exact (s.latch_quiet _ _).course
  | stageWrite sec record field value => exact reqStageWrite_course p sec record field value s
  | stageRead sec record field => exact reqStageRead_course p sec record field s
  | configRead sec record field => exact same (reqConfigRead_state sec record field s)
  | commit => exact reqCommit_course p s
  | discard => exact reqDiscard_course p s
  | clearTally mask => exact reqClearTally_course p mask s
  | restart generation => exact reqRestart_course p generation s
  | defineReadSet codes => exact reqDefineReadSet_course p codes s
  | readSet => exact State.withSession_course fun _ _ => same rfl
  | detectorStatus => exact same rfl

/-! ### A frame taken, and a frame complete on a port (R161, R169, R174) -/

theorem State.takeRequestFrame_course (s : State) (p : Port) (deadline : Option W32) (f : RequestFrame) :
    Course s (s.takeRequestFrame p deadline f) := by
  rcases s.takeRequestFrame_cases p deadline f with ⟨st, -, h⟩ | ⟨r, -, h⟩ <;> rw [h]
  · exact (s.refuseFrame_quiet p f.tag st).course
  · exact (s.perform_course p deadline r).quiet (State.answer_quiet _ _ _)

theorem State.arriveOnC_course (s : State) (deadline : Option W32) (f : RequestFrame) : Course s (s.arriveOnC deadline f) := by
  unfold State.arriveOnC
  split
  · exact s.takeRequestFrame_course .c deadline f
  · split
    · exact Quiet.course (s.onPortC_quiet (f := fun k => { k with held := some ⟨f, deadline⟩ }) id)
    · exact Quiet.course (s.onPortC_quiet (f := fun k => { k with overlap := satInc limit8 k.overlap }) fun h => ⟨h.1, satInc_le _ _⟩)

theorem State.arrive_course (s : State) (p : Port) (f : RequestFrame) : Course s (s.arrive p f) := by
  refine (s.restartIdle_quiet p).then ?_
  cases p with
  | a => exact State.takeRequestFrame_course _ _ _ _
  | b => exact State.takeRequestFrame_course _ _ _ _
  | c => exact State.arriveOnC_course _ _ _

theorem State.syncByte_course (s : State) (p : SyncId) (b : Byte) : Course s (s.syncByte p b) := by
  simp only [State.syncByte]
  split
  · exact Quiet.course (s.onLink_keeps_quiet p (fun _ => rfl) fun _ => rfl)
  · exact Quiet.course (s.onLink_quiet p fun k h => ⟨h.1.addLength, h.2⟩)
  · exact (s.onLink_keeps_quiet p (f := SyncLink.ignoreRest) (fun _ => rfl) fun _ => rfl).then (State.arrive_course _ _ _)

theorem State.frameByte_course (s : State) (b : Byte) : Course s (s.frameByte b) := by
  simp only [State.frameByte]
  split
  · exact Quiet.course (s.onPortC_quiet id)
  · exact Quiet.course (s.onPortC_quiet fun h => ⟨h.1.addLength, h.2⟩)
  · exact (s.onPortC_quiet (f := AsyncLink.hunt) id).then (State.arrive_course _ _ _)

theorem State.receiveByte_course (s : State) (b : Byte) (stopHigh : Bool) : Course s (s.receiveByte b stopHigh) := by
  unfold State.receiveByte
  split
  · exact .refl s
  · split
    · exact (s.huntByte_quiet b).course
    · exact .refl s
  · split
    · exact s.frameByte_course b
    · exact Quiet.course (s.onPortC_quiet fun h => ⟨h.1.addCut, h.2⟩)

end Sys2Proof.Machine
end

section
/-! SUPPORT. The course of every command, of every step, and what a course keeps. -/

namespace Sys2Proof.Machine

/-- The state right after some reset, with the lines driven. -/
def State.IsReset (t : State) : Prop :=
  ∃ cause epoch s3 kept residues pins draws pending, t = (State.afterReset cause epoch s3 kept residues pins draws pending).drive

/-- All that a command does: a course of the running part, the tick that TICK_COUNT adds, or a reset where one may come. -/
inductive CommandCourse (c : Instr) (s t : State) : Prop
  | course (h : Course s t)
  | tick (hc : c = .tickCount) (h : t = State.drive { s with front := { s.front with tick := s.front.tick + 1 } })
  | reset (hc : mayReset c = true) (h : t.IsReset)

theorem State.restarted_isReset (s : State) (cause : RestartCause) (pins : Pins) : (s.restarted cause pins).drive.IsReset :=
  ⟨_, _, _, _, _, _, _, _, rfl⟩

/-- A command that the running part takes with a restart in it, or without. -/
theorem State.whenRunning_restart {c : Instr} {s t : State} {f : State → State} (hc : mayReset c = true)
    (h : s.whenRunning f = .next t) (k : Course s (f s) ∨ f s = s.restartNow) : CommandCourse c s t := by
  rcases k with k | k
  · exact .course (State.whenRunning_course h k)
  · rcases s.whenRunning_cases f with ⟨-, e⟩ | ⟨-, e⟩ <;> (rw [e] at h; cases h)
    · exact .reset hc (k ▸ s.restarted_isReset _ _)
    · exact .course s.drive_quiet.course

theorem State.fetchOne_cases (s : State) (p : SyncId) : Course s (s.fetchOne p) ∨ s.fetchOne p = s.restartNow := by
  simp only [State.fetchOne]
  split
  · exact .inl (Quiet.course (s.onLink_keeps_quiet p (fun _ => rfl) fun _ => rfl))
  · split
    · split
      · exact .inr rfl
      · exact .inl (Quiet.course (s.onLink_keeps_quiet p (fun _ => rfl) fun _ => rfl))
    · exact .inl (Quiet.course (s.onLink_keeps_quiet p (fun _ => rfl) fun _ => rfl))

theorem State.responseDelivered_cases (s : State) (r : Response) :
    Course s (s.responseDelivered r) ∨ s.responseDelivered r = s.restartNow := by
  unfold State.responseDelivered
  split
  · exact .inr rfl
  · refine .inl ?_
    split
    · exact Quiet.course (s.onPortC_quiet id)
    · exact (s.onPortC_quiet (f := fun k => { k with sending := none, held := none }) id).then (State.takeRequestFrame_course _ _ _ _)

/-- A command that is a request is the arrival of its good frame (log 18). -/
theorem exec_request {c : Instr} {p : Port} {tag : Byte} {r : Request} (h : asRequest c = some (p, tag, r)) (s : State) :
    exec c s = s.whenRunning fun s => s.request p tag r := by
  cases c <;> cases h <;> rfl

/-- A part of the state with no bearing on the journal, and the running part's course after it. -/
theorem Quiet.whenRunning {s a t : State} {f : State → State} (q : Quiet s a) (h : a.whenRunning f = .next t)
    (k : Course a (f a)) : Course s t := q.then (State.whenRunning_course h k)

/-! ### The commands that are no requests -/

theorem execPinReset_course {s t : State} (h : execPinReset s = .next t) : CommandCourse .pinReset s t := by
  simp only [execPinReset] at h
  split at h <;> cases h
  · exact .course s.drive_quiet.course
  · exact .reset rfl (s.restarted_isReset _ _)

theorem execFrameTaken_course {s t : State} {u ia ib : W16} (h : execFrameTaken u ia ib s = .next t) : Course s t :=
  State.whenRunning_course h (s.takeFrame_quiet _).course

theorem execDetectorClose_course {s t : State} (h : execDetectorClose s = .next t) : Course s t := by
  refine State.whenRunning_course h ?_
  split
  · exact .refl s
  · exact Quiet.course (Quiet.trans (.of_watched (by rfl)) (State.takeDetectorClose_quiet _ _))

theorem execEnergyClose_course {s t : State} (h : execEnergyClose s = .next t) : Course s t := by
  refine State.whenRunning_course h ?_
  split
  · exact .refl s
  · exact Quiet.course (Quiet.trans (s.setEnergy_quiet (by rfl)) (State.takeEnergyClose_quiet _ _))

theorem execPulseHighEnd_course {s t : State} {e : PulseId} (h : execPulseHighEnd e s = .next t) : Course s t := by
  refine State.whenRunning_course h ?_
  simp only []
  split
  · split
    · exact Quiet.course (s.setEngine_quiet e fun hb => hb e)
    · exact .refl s
  · exact .refl s

theorem execPulseGapEnd_course {s t : State} {e : PulseId} (h : execPulseGapEnd e s = .next t) : Course s t := by
  refine State.whenRunning_course h ?_
  simp only []
  split
  · split
    · exact Quiet.course (s.setEngine_quiet e fun hb => (hb e).afterGap _ _)
    · exact .refl s
  · exact .refl s

theorem execEnergyConfig_course {s t : State} (h : execEnergyConfig s = .next t) : Course s t := by
  refine State.whenRunning_course h ?_
  split
  · exact Quiet.course (Quiet.trans (s.setEnergy_quiet (by rfl)) (State.takeS3_quiet _ _))
  · exact .refl s

theorem execEnergyFault_course {s t : State} (h : execEnergyFault s = .next t) : Course s t := by
  refine State.whenRunning_course h ?_
  split
  · exact Quiet.course (Quiet.trans (s.setEnergy_quiet (by rfl)) (State.freezeEnergy_quiet _))
  · exact .refl s

theorem execCaptureFrame_course {s t : State} (h : execCaptureFrame s = .next t) : Course s t := by
  refine State.whenRunning_course h ?_
  split
  · exact .refl s
  · exact ((s.setCapInbox_quiet _).trans (State.captureFrame_quiet _ _)).course

theorem execCaptureTrigger_course {s t : State} (h : execCaptureTrigger s = .next t) : Course s t := by
  refine State.whenRunning_course h ?_
  split
  · exact .refl s
  · rename_i hd
    exact (((State.drawTrigger_quiet hd).trans (State.setCapInbox_quiet _ _)).trans (State.takeTrigger_quiet _ _ _ _)).course

theorem execXtrigInEdge_course {s t : State} {high : Bool} (h : execXtrigInEdge high s = .next t) : Course s t :=
  Quiet.whenRunning (.of_watched (by rfl)) h (State.senseXtrig_quiet _ high).course

theorem execXtrigOutPulseEnd_course {s t : State} (h : execXtrigOutPulseEnd s = .next t) : Course s t := by
  refine State.whenRunning_course h ?_
  split
  · exact .refl s
  · split
    · exact Quiet.course (.of_watched rfl)
    · exact .refl s

theorem execCaptureConfig_course {s t : State} (h : execCaptureConfig s = .next t) : Course s t := by
  refine State.whenRunning_course h ?_
  split
  · exact .refl s
  · exact ((s.setCapInbox_quiet _).trans (State.takeS2_quiet _ _)).course

theorem execCaptureTokenFree_course {s t : State} (h : execCaptureTokenFree s = .next t) : Course s t := by
  refine State.whenRunning_course h ?_
  split
  · exact .refl s
  · exact ((s.setCapInbox_quiet _).trans (State.retryStarved_quiet _)).course

theorem execJournalAppend_course {s t : State} {source : Source} (h : execJournalAppend source s = .next t) : Course s t := by
  refine State.whenRunning_course h ?_
  split
  · exact .refl s
  · exact .storing (.trans (.quiet (.of_watched (by rfl))) (State.takeAppend_storing _ _ _ _))

theorem execLeaseExpiry_course {s t : State} (h : execLeaseExpiry s = .next t) : Course s t := by
  refine State.whenRunning_course h ?_
  split
  · exact .refl s
  · split
    · exact (s.endTenure_quiet _ _).course
    · exact .refl s

theorem execLeaseWarnStart_course {s t : State} (h : execLeaseWarnStart s = .next t) : Course s t :=
  State.whenRunning_course h (.refl s)

theorem execIntegrityScrub_course {s t : State} (h : execIntegrityScrub s = .next t) : Course s t := by
  refine State.whenRunning_course h ?_
  split
  · exact s.scrub_quiet.course
  · exact .refl s

theorem execIdleExpiry_course {s t : State} {p : Port} (h : execIdleExpiry p s = .next t) : Course s t := by
  refine State.whenRunning_course h ?_
  split
  · exact s.endSession_course p .expired
  · exact .refl s

theorem execRestartTimeout_course {s t : State} (h : execRestartTimeout s = .next t) : CommandCourse .restartTimeout s t := by
  refine State.whenRunning_restart rfl h ?_
  split
  · exact .inl (.refl s)
  · split
    · exact .inr rfl
    · exact .inl (.refl s)

theorem execSelectFall_course {s t : State} {p : SyncId} (h : execSelectFall p s = .next t) : Course s t := by
  refine (s.setSelect_quiet p true).whenRunning h ?_
  split
  · exact .refl _
  · exact Quiet.course (State.onLink_keeps_quiet _ p (fun _ => rfl) fun _ => rfl)

theorem execSelectRise_course {s t : State} {p : SyncId} (h : execSelectRise p s = .next t) : Course s t := by
  refine (s.setSelect_quiet p false).whenRunning h ?_
  split
  · exact Quiet.course (State.onLink_quiet _ p fun _ hk => hk.deselected)
  · exact .refl _

theorem execFirstByte_course {s t : State} {p : SyncId} {b : Byte} (h : execFirstByte p b s = .next t) : Course s t := by
  refine State.whenRunning_course h ?_
  split
  · exact Quiet.course (s.onLink_quiet p fun _ hk => hk.firstByte _ _)
  · exact .refl s

theorem execRequestByte_course {s t : State} {p : SyncId} {b : Byte} (h : execRequestByte p b s = .next t) : Course s t := by
  refine State.whenRunning_course h ?_
  split
  · exact s.syncByte_course p b
  · exact .refl s

theorem execFetchByte_course {s t : State} {p : SyncId} (h : execFetchByte p s = .next t) : CommandCourse (.fetchByte p) s t := by
  refine State.whenRunning_restart rfl h ?_
  split
  · exact s.fetchOne_cases p
  · exact .inl (.refl s)

theorem execFrameGapTimeout_course {s t : State} {p : Port} (h : execFrameGapTimeout p s = .next t) : Course s t := by
  refine State.whenRunning_course h ?_
  cases p with
  | a => exact (s.syncGap_quiet .a).course
  | b => exact (s.syncGap_quiet .b).course
  | c => exact s.asyncGap_quiet.course

theorem execLeadPattern_course {s t : State} {i1 i2 i3 i4 : Nat} {next : Option Nat}
    (h : execLeadPattern i1 i2 i3 i4 next s = .next t) :
    Course s t := by
  refine State.whenRunning_course h ?_
  split
  · exact (s.leadSeen_quiet _).course
  · exact .refl s

theorem execPortCByte_course {s t : State} {b : Byte} {stopHigh : Bool} (h : execPortCByte b stopHigh s = .next t) : Course s t :=
  State.whenRunning_course h (s.receiveByte_course b stopHigh)

theorem execResponseSent_course {s t : State} (h : execResponseSent s = .next t) : CommandCourse .responseSent s t := by
  refine State.whenRunning_restart rfl h ?_
  split
  · exact .inl (.refl s)
  · exact s.responseDelivered_cases _

theorem execLineBreak_course {s t : State} (h : execLineBreak s = .next t) : Course s t := by
  refine State.whenRunning_course h (Course.quiet ?_ (State.onPortC_quiet _ fun _ => AsyncLink.broken_bounded _))
  split
  · exact s.endSession_course .c .portReset
  · exact .refl s

theorem execBadFrame_course {s t : State} {p : Port} {tag code : Byte} {payload : List Byte} {check : Byte}
    (h : execBadFrame p tag code payload check s = .next t) :
    Course s t :=
  State.whenRunning_course h (s.arrive_course p _)

theorem execTickCount_course {s t : State} (h : execTickCount s = .next t) : CommandCourse .tickCount s t := by
  rcases s.whenRunning_cases fun s => { s with front := { s.front with tick := s.front.tick + 1 } } with ⟨-, e⟩ | ⟨-, e⟩
  · exact .tick rfl (Host.Outcome.next.inj (h.symm.trans e))
  · exact .course (Host.Outcome.next.inj (h.symm.trans e) ▸ s.drive_quiet.course)

theorem execResetRelease_course {s t : State} (h : execResetRelease s = .next t) : Course s t := by
  simp only [execResetRelease] at h
  split at h <;> cases h
  · exact Quiet.course (.of_watched rfl)
  · exact s.drive_quiet.course

/-- Every command goes one of the ways of `CommandCourse`. -/
theorem exec_course {c : Instr} {s t : State} (h : exec c s = .next t) : CommandCourse c s t := by
  cases hr : asRequest c with
  | some r =>
    obtain ⟨p, tag, r⟩ := r
    exact .course (State.whenRunning_course (exec_request hr s ▸ h) (s.arrive_course p _))
  | none =>
    cases c with
    | powerOnReset => cases h; exact .reset rfl ⟨_, _, _, _, _, _, _, _, rfl⟩
    | pinReset => exact execPinReset_course h
    | frameTaken u ia ib => exact .course (execFrameTaken_course h)
    | detectorClose => exact .course (execDetectorClose_course h)
    | energyClose => exact .course (execEnergyClose_course h)
    | pulseHighEnd e => exact .course (execPulseHighEnd_course h)
    | pulseGapEnd e => exact .course (execPulseGapEnd_course h)
    | energyConfig => exact .course (execEnergyConfig_course h)
    | energyFault => exact .course (execEnergyFault_course h)
    | captureFrame => exact .course (execCaptureFrame_course h)
    | captureTrigger => exact .course (execCaptureTrigger_course h)
    | xtrigInEdge high => exact .course (execXtrigInEdge_course h)
    | xtrigOutPulseEnd => exact .course (execXtrigOutPulseEnd_course h)
    | captureConfig => exact .course (execCaptureConfig_course h)
    | captureTokenFree => exact .course (execCaptureTokenFree_course h)
    | journalAppend source => exact .course (execJournalAppend_course h)
    | leaseExpiry => exact .course (execLeaseExpiry_course h)
    | leaseWarnStart => exact .course (execLeaseWarnStart_course h)
    | integrityScrub => exact .course (execIntegrityScrub_course h)
    | idleExpiry p => exact .course (execIdleExpiry_course h)
    | restartTimeout => exact execRestartTimeout_course h
    | selectFall p => exact .course (execSelectFall_course h)
    | selectRise p => exact .course (execSelectRise_course h)
    | firstByte p b => exact .course (execFirstByte_course h)
    | requestByte p b => exact .course (execRequestByte_course h)
    | fetchByte p => exact execFetchByte_course h
    | frameGapTimeout p => exact .course (execFrameGapTimeout_course h)
    | leadPattern i1 i2 i3 i4 next => exact .course (execLeadPattern_course h)
    | portCByte b stopHigh => exact .course (execPortCByte_course h)
    | responseSent => exact execResponseSent_course h
    | lineBreak => exact .course (execLineBreak_course h)
    | badFrame p tag code payload check => exact .course (execBadFrame_course h)
    | tickCount => exact execTickCount_course h
    | resetRelease => exact .course (execResetRelease_course h)
    | _ => cases hr

end Sys2Proof.Machine
end

section
/-! SUPPORT. What a course keeps, and the statements on what every step and every command keeps. -/

namespace Sys2Proof.Machine

/-! ### A session opened, a session ended -/

@[simp] theorem State.opened_journal (s : State) (p : Port) (x : Session) (hold : Bool) :
    (s.opened p x hold).journal = s.journal := by cases hold <;> rfl

@[simp] theorem State.opened_front (s : State) (p : Port) (x : Session) (hold : Bool) :
    (s.opened p x hold).front = s.front := by cases hold <;> rfl

theorem State.opened_session (s : State) (p q : Port) (x : Session) (hold : Bool) :
    (s.opened p x hold).session q = if q = p then some x else s.session q := by
  cases hold <;> exact PerPort.get_set s.sessions p q (some x)

theorem State.opened_blockCounters {s : State} (h : s.BlockCounters) (p : Port) (x : Session) (hold : Bool) :
    (s.opened p x hold).BlockCounters := by
  cases hold <;> exact ⟨h.links, h.portC, h.dets, h.engines, h.captures⟩

@[simp] theorem State.discardSession_journal (s : State) (p : Port) : (s.discardSession p).journal = s.journal := by
  rw [State.discardSession_eq]

@[simp] theorem State.discardSession_front (s : State) (p : Port) : (s.discardSession p).front = s.front := by
  rw [State.discardSession_eq]

theorem State.discardSession_session (s : State) (p q : Port) :
    (s.discardSession p).session q = if q = p then none else s.session q := by
  rw [State.discardSession_eq]
  exact PerPort.get_set s.sessions p q none

theorem State.discardSession_token (s : State) (p : Port) : (s.discardSession p).token = s.tokenWithout p := by
  rw [State.discardSession_eq]

theorem State.discardSession_blockCounters {s : State} (h : s.BlockCounters) (p : Port) : (s.discardSession p).BlockCounters := by
  rw [State.discardSession_eq]
  exact ⟨h.links, h.portC, h.dets, h.engines, h.captures⟩

/-- Other ports' sessions are protected while a session is opened. -/
theorem State.protects_opened {s : State} {p q : Port} (h : q ≠ p) (x : Session) (hold : Bool) : s.Protects q (s.opened p x hold) :=
  fun y hy => ⟨y, by rw [State.opened_session, if_neg h, hy], rfl, fun e he hp => by rw [State.opened_journal]; exact ⟨he, hp⟩⟩

/-- Other ports' sessions are protected while a session's record goes. -/
theorem State.protects_discardSession {s : State} {p q : Port} (h : q ≠ p) : s.Protects q (s.discardSession p) :=
  fun y hy => ⟨y, by rw [State.discardSession_session, if_neg h, hy], rfl, fun e he hp => by
    rw [State.discardSession_journal]; exact ⟨he, hp⟩⟩

/-! ### What a course keeps -/

theorem Course.journalLaw {s t : State} (h : Course s t) (hj : s.journal.Law) : t.journal.Law := by
  cases h with
  | still h => exact Journal.law_of_stored h.journal hj
  | storing h => exact h.journalLaw hj
  | opens before _ _ _ after => exact after.journalLaw (by simpa using before.journalLaw hj)
  | ends before after => exact after.journalLaw (by simpa using before.journalLaw hj)

theorem State.ReadersLaw.opened {s : State} (h : s.ReadersLaw) {x : Session} (hx : x.Law s.journal) (p : Port) (hold : Bool) :
    (s.opened p x hold).ReadersLaw := by
  intro q y hy
  rw [State.opened_session] at hy
  rw [State.opened_journal]
  split at hy
  · cases hy; exact hx
  · exact h q y hy

theorem State.ReadersLaw.discardSession {s : State} (h : s.ReadersLaw) (p : Port) : (s.discardSession p).ReadersLaw := by
  intro q y hy
  rw [State.discardSession_session] at hy
  rw [State.discardSession_journal]
  split at hy
  · cases hy
  · exact h q y hy

theorem Still.session_inv {s t : State} (h : Still s t) {p : Port} {y : Session} (hy : t.session p = some y) :
    ∃ x, s.session p = some x ∧ x.Repositioned y s.journal := by
  cases hx : s.session p with
  | none => rw [h.closed p hx] at hy; cases hy
  | some x =>
    obtain ⟨y', hy', hr⟩ := h.moved p x hx
    rw [hy] at hy'
    cases hy'
    exact ⟨x, rfl, hr⟩

theorem Course.readersLaw {s t : State} (h : Course s t) (hj : s.journal.Law) (hr : s.ReadersLaw) : t.ReadersLaw := by
  cases h with
  | still h =>
    intro p y hy
    obtain ⟨x, hx, -, hlaw⟩ := h.session_inv hy
    exact Session.law_of_stored h.journal (hlaw hj (hr p x hx))
  | storing h => exact h.readersLaw hj hr
  | opens before _ law _ after =>
    have hja := before.journalLaw hj
    exact after.readersLaw (by simpa using hja) ((before.readersLaw hj hr).opened (law hja) _ _)
  | ends before after =>
    exact after.readersLaw (by simpa using before.journalLaw hj) ((before.readersLaw hj hr).discardSession _)

theorem State.Protects.stored {s t : State} {p : Port} {x : Session} (h : s.Protects p t) (hx : s.session p = some x) :
    (∀ e ∈ s.journal.entries, x.pinsEntry s.journal.nextSeq e = true → e ∈ t.journal.entries)
      ∧ ∀ y, t.session p = some y → y.overrunCount = x.overrunCount := by
  obtain ⟨y, hy, hc, hst⟩ := h x hx
  exact ⟨fun e he hp => (hst e he hp).1, fun y' hy' => by rw [hy] at hy'; cases hy'; exact hc⟩

/-- While a port keeps the HOLD token, its pinned entries stay stored and it is not overrun (R17). -/
theorem Course.hold_protects {s t : State} {p : Port} {x : Session} (h : Course s t) (hj : s.journal.Law) (hr : s.ReadersLaw)
    (hs : s.token = some p) (ht : t.token = some p) (hx : s.session p = some x) :
    (∀ e ∈ s.journal.entries, x.pinsEntry s.journal.nextSeq e = true → e ∈ t.journal.entries)
      ∧ ∀ y, t.session p = some y → y.overrunCount = x.overrunCount := by
  cases h with
  | still h =>
    refine ⟨fun e he _ => h.entries ▸ he, fun y hy => ?_⟩
    obtain ⟨x', hx', hc, -⟩ := h.session_inv hy
    rw [hx] at hx'
    cases hx'
    exact hc
  | storing h => exact (h.protects hj hr hs).stored hx
  | @opens a q z hold before closed law _ after =>
    have kept := before.protects hj hr hs
    have hne : p ≠ q := by
      rintro rfl
      obtain ⟨y, hy, -⟩ := kept x hx
      rw [closed] at hy
      cases hy
    have hja := before.journalLaw hj
    have hta : (a.opened q z hold).token = some p := after.token.symm.trans ht
    have opened := (before.readersLaw hj hr).opened (law hja) q hold
    exact ((kept.trans (State.protects_opened hne z hold)).trans (after.protects (by simpa using hja) opened hta)).stored hx
  | @ends a q before after =>
    have hta : (a.discardSession q).token = some p := after.token.symm.trans ht
    have hne : p ≠ q := by
      rintro rfl
      rw [State.discardSession_token, State.tokenWithout, before.token.trans hs, if_pos rfl] at hta
      cases hta
    have kept := (before.protects hj hr hs).trans (State.protects_discardSession hne)
    exact (kept.trans (after.protects (by simpa using before.journalLaw hj) ((before.readersLaw hj hr).discardSession _) hta)).stored hx

theorem Course.tick {s t : State} (h : Course s t) : t.front.tick = s.front.tick := by
  cases h with
  | still h => exact h.tick
  | storing h => exact h.tick
  | opens before _ _ _ after => exact after.tick.trans (by simpa using before.tick)
  | ends before after => exact after.tick.trans (by simpa using before.tick)

theorem Course.epoch {s t : State} (h : Course s t) : t.journal.epoch = s.journal.epoch := by
  cases h with
  | still h => exact h.epoch
  | storing h => exact h.epoch
  | opens before _ _ _ after => exact after.epoch.trans (by simpa using before.epoch)
  | ends before after => exact after.epoch.trans (by simpa using before.epoch)

theorem Course.bounded {s t : State} (h : Course s t) (hs : s.Bounded) : t.Bounded := by
  rw [State.bounded_iff] at hs ⊢
  obtain ⟨hb, hr⟩ := hs
  cases h with
  | still h =>
    refine ⟨h.counters hb, h.tally ▸ hr.tally, fun p y hy => ?_⟩
    obtain ⟨x, hx, hc, -⟩ := h.session_inv hy
    exact hc ▸ hr.overruns p x hx
  | storing h => exact ⟨h.blockCounters hb, h.readerCounters hr⟩
  | @opens a q z hold before _ _ count after =>
    have ha := before.readerCounters hr
    refine ⟨after.blockCounters (State.opened_blockCounters (before.blockCounters hb) _ _ _),
      after.readerCounters ⟨?_, fun p y hy => ?_⟩⟩
    · simpa using ha.tally
    · rw [State.opened_session] at hy
      split at hy
      · cases hy; rw [count]; exact Nat.zero_le _
      · exact ha.overruns p y hy
  | @ends a q before after =>
    have ha := before.readerCounters hr
    refine ⟨after.blockCounters (State.discardSession_blockCounters (before.blockCounters hb) _),
      after.readerCounters ⟨?_, fun p y hy => ?_⟩⟩
    · simpa using ha.tally
    · rw [State.discardSession_session] at hy
      split at hy
      · cases hy
      · exact ha.overruns p y hy

/-! ### Right after a reset -/

theorem Journal.afterReset_law (cause : RestartCause) (epoch : W16) : (Journal.afterReset cause epoch).Law :=
  ⟨by simp [Journal.afterReset], by simp [Journal.afterReset], (by decide : (2 : W32) ≠ 0), (by decide : [(1 : W32)] = seqsBefore 2 1)⟩

theorem State.IsReset.session {t : State} (h : t.IsReset) (p : Port) : t.session p = none := by
  obtain ⟨cause, epoch, s3, kept, residues, pins, draws, pending, rfl⟩ := h
  cases p <;> rfl

theorem State.IsReset.token {t : State} (h : t.IsReset) : t.token = none := by
  obtain ⟨cause, epoch, s3, kept, residues, pins, draws, pending, rfl⟩ := h
  rfl

theorem State.IsReset.journalLaw {t : State} (h : t.IsReset) : t.journal.Law := by
  obtain ⟨cause, epoch, s3, kept, residues, pins, draws, pending, rfl⟩ := h
  exact Journal.afterReset_law cause epoch

theorem State.IsReset.bounded {t : State} (h : t.IsReset) : t.Bounded := by
  have hs := h.session
  obtain ⟨cause, epoch, s3, kept, residues, pins, draws, pending, rfl⟩ := h
  rw [State.bounded_iff]
  refine ⟨⟨fun k => ?_, ⟨LinkCounters.zero_bounded, Nat.zero_le _⟩, fun d => ?_, fun e => ?_, fun c hc => by cases hc⟩,
    fun c => ?_, fun p x hx => by rw [hs] at hx; cases hx⟩
  · cases k <;> exact ⟨LinkCounters.zero_bounded, Nat.zero_le _⟩
  · change ((detDefaults.mapWith fun _ cfg => Detector.starting cfg).get d).Bounded
    rw [PerDet.get_mapWith]
    exact ⟨Nat.zero_le _, Nat.zero_le _, Nat.zero_le _, Nat.zero_le _⟩
  · change ((residues.mapWith fun _ r => (⟨r, 0, 0, .idle⟩ : PulseEngine)).get e).Bounded
    rw [PerPulse.get_mapWith]
    exact ⟨Nat.zero_le _, Nat.zero_le _⟩
  · cases c <;> exact Nat.zero_le _

/-! ### What every command and every step keeps -/

theorem exec_journalLaw {c : Instr} {s t : State} (h : exec c s = .next t) (hj : s.journal.Law) : t.journal.Law := by
  cases exec_course h with
  | course k => exact k.journalLaw hj
  | tick _ k => exact k ▸ hj
  | reset _ k => exact k.journalLaw

theorem exec_readersLaw {c : Instr} {s t : State} (h : exec c s = .next t) (hj : s.journal.Law) (hr : s.ReadersLaw) :
    t.ReadersLaw := by
  cases exec_course h with
  | course k => exact k.readersLaw hj hr
  | tick _ k => exact k ▸ hr
  | reset _ k => exact fun p x hx => by rw [k.session] at hx; cases hx

theorem exec_bounded {c : Instr} {s t : State} (h : exec c s = .next t) (hs : s.Bounded) : t.Bounded := by
  cases exec_course h with
  | course k => exact k.bounded hs
  | tick _ k => exact k ▸ hs
  | reset _ k => exact k.bounded

theorem exec_epoch {c : Instr} {s t : State} (h : exec c s = .next t) (hc : mayReset c = false) :
    t.journal.epoch = s.journal.epoch := by
  cases exec_course h with
  | course k => exact k.epoch
  | tick _ k => exact k ▸ rfl
  | reset k => rw [k] at hc; cases hc

theorem exec_tick {c : Instr} {s t : State} (h : exec c s = .next t) (hc : mayReset c = false) (hn : c ≠ .tickCount) :
    t.front.tick = s.front.tick := by
  cases exec_course h with
  | course k => exact k.tick
  | tick k => exact absurd k hn
  | reset k => rw [k] at hc; cases hc

/-- What holds and is kept by every command, whatever waits in the queue, is kept by every step. -/
theorem step_induction {P : State → Prop} (hq : ∀ s l, P s → P (s.setPending l))
    (hexec : ∀ c s t, P s → exec c s = .next t → P t) {s t : State} (hs : P s) (h : step s = .next t) : P t := by
  unfold step at h
  split at h
  · cases h; exact hs
  · exact hexec _ _ _ (hq s _ hs) h

/-- Settles O17: each command stores consecutive entries, removes the oldest of a full journal, or leaves the stored journal alone. -/
theorem journalLawKept : Obligations.JournalLawKept :=
  fun _ _ hj h => step_induction (P := fun s => s.journal.Law) (fun _ _ => id) (fun _ _ _ hs k => exec_journalLaw k hs) hj h

/-- Settles O18: the readers' law is kept together with the journal's. -/
theorem readersLawKept : Obligations.ReadersLawKept :=
  fun _ _ hj hr h => (step_induction (P := fun s => s.journal.Law ∧ s.ReadersLaw) (fun _ _ => id)
    (fun _ _ _ hs k => ⟨exec_journalLaw k hs.1, exec_readersLaw k hs.1 hs.2⟩) ⟨hj, hr⟩ h).2

/-- Settles O19: only an entry that is not held back is removed, and what a port in HOLD pins stays pinned by it. -/
theorem holdProtects : Obligations.HoldProtects := by
  intro c s t p x hj hr h hs ht hx
  cases exec_course h with
  | course k => exact k.hold_protects hj hr hs ht hx
  | tick _ k =>
    subst k
    exact ⟨fun e he _ => he, fun y hy => by cases hx.symm.trans hy; rfl⟩
  | reset _ k => rw [k.token] at ht; cases ht

/-- Settles O5: a course of the running part keeps the epoch and the tick. -/
theorem tickAndEpoch : Obligations.TickAndEpoch :=
  ⟨fun _ _ _ h hc => exec_epoch h hc, fun _ _ _ h hc hn => exec_tick h hc hn, fun _ h =>
    State.whenRunning_of_running h fun r => { r with front := { r.front with tick := r.front.tick + 1 } }⟩

/-- Settles O22: every count goes up by a saturating sum. -/
theorem countersBounded : Obligations.CountersBounded :=
  fun _ _ hs h => step_induction (P := State.Bounded) (fun _ _ => id) (fun _ _ _ hb k => exec_bounded k hb) hs h

end Sys2Proof.Machine
end

section
/-! SUPPORT. The outcome of each store attempt and of each append (R12 to R19) as one change of the state, and the statements on
JOURNAL_APPEND. -/

namespace Sys2Proof.Machine

/-! ### What an append may change -/

/-- The state with other entries, another `next_seq` and another tally, and with every open session moved. -/
def State.afterAppend (s : State) (entries : List Entry) (nextSeq : W32) (tally : LossTally) (move : Session → Session) : State :=
  { s with
    sessions := s.sessions.mapWith fun _ x => x.map move
    journal := { s.journal with entries := entries, nextSeq := nextSeq, tally := tally } }

theorem PerPort.mapWith_map_id (v : PerPort (Option Session)) : (v.mapWith fun _ x => x.map id) = v :=
  PerPort.mapWith_self v fun _ _ => rfl

theorem State.afterAppend_id (s : State) (entries : List Entry) (nextSeq : W32) (tally : LossTally) :
    s.afterAppend entries nextSeq tally id =
      { s with journal := { s.journal with entries := entries, nextSeq := nextSeq, tally := tally } } := by
  rw [State.afterAppend, PerPort.mapWith_map_id]

theorem State.afterAppend_afterAppend (s : State) (l l' : List Entry) (n n' : W32) (c c' : LossTally) (f g : Session → Session) :
    (s.afterAppend l n c f).afterAppend l' n' c' g = s.afterAppend l' n' c' fun x => g (f x) := by
  simp only [State.afterAppend, PerPort.mapWith_mapWith s.sessions (fun _ => f) fun _ => g]

theorem State.afterAppend_emptyTally (s : State) (l : List Entry) (n : W32) (c : LossTally) (f : Session → Session) :
    (s.afterAppend l n c f).emptyTally = s.afterAppend l n .empty f := rfl

theorem State.afterAppend_session (s : State) (l : List Entry) (n : W32) (c : LossTally) (f : Session → Session) (p : Port) :
    (s.afterAppend l n c f).session p = (s.session p).map f := by cases p <;> rfl

/-- An entry is held back after appends if the HOLD session, moved by them, pins it. -/
theorem State.heldBack_afterAppend (s : State) (l : List Entry) (n : W32) (c : LossTally) (f : Session → Session) (e : Entry) :
    (s.afterAppend l n c f).heldBack e = true ↔
      ∃ p x, s.token = some p ∧ s.session p = some x ∧ (f x).pinsEntry n e = true := by
  rw [State.heldBack_iff]
  constructor
  · rintro ⟨p, y, ht, hy, hp⟩
    rw [State.afterAppend_session] at hy
    obtain ⟨x, hx, rfl⟩ := Option.map_eq_some_iff.mp hy
    exact ⟨p, x, ht, hx, hp⟩
  · rintro ⟨p, x, ht, hx, hp⟩
    exact ⟨p, f x, ht, by rw [State.afterAppend_session, hx]; rfl, hp⟩

/-! ### The three outcomes of a store attempt -/

theorem State.tryStore_room {s : State} (h : s.journal.entries.length < journalCapacity) (tick hc : W32) (body : EntryBody) :
    s.tryStore tick hc body =
      (s.afterAppend (s.journal.entries ++ [⟨s.journal.nextSeq, tick, hc, body⟩]) (seqSucc s.journal.nextSeq) s.journal.tally id,
        some s.journal.nextSeq) := by
  rw [State.tryStore, if_pos h, State.afterAppend_id]
  rfl

theorem State.tryStore_evicts {s : State} {e : Entry} {rest : List Entry} (he : s.journal.entries = e :: rest)
    (full : s.journal.entries.length = journalCapacity) (free : s.heldBack e = false) (tick hc : W32) (body : EntryBody) :
    s.tryStore tick hc body =
      (s.afterAppend (rest ++ [⟨s.journal.nextSeq, tick, hc, body⟩]) (seqSucc s.journal.nextSeq) s.journal.tally
        (fun x => x.passRemoved s.journal.nextSeq e), some s.journal.nextSeq) := by
  rw [State.tryStore, if_neg (by omega)]
  simp only [he, free]
  rfl

theorem State.tryStore_refused {s : State} {e : Entry} {rest : List Entry} (he : s.journal.entries = e :: rest)
    (full : s.journal.entries.length = journalCapacity) (held : s.heldBack e = true) (tick hc : W32) (body : EntryBody) :
    s.tryStore tick hc body = (s, none) := by
  rw [State.tryStore, if_neg (by omega)]
  simp only [he, held]
  rfl

/-! ### An append with its GAP (R14) -/

theorem State.storeOrCount_stored {s s' : State} {tick hc : W32} {body : EntryBody} {seq : W32}
    (h : s.tryStore tick hc body = (s', some seq)) : s.storeOrCount tick hc body = (s', some seq) := by
  simp only [State.storeOrCount, h]

theorem State.storeOrCount_refused {s s' : State} {tick hc : W32} {body : EntryBody} (h : s.tryStore tick hc body = (s', none)) :
    s.storeOrCount tick hc body = (s'.countLost tick body, none) := by
  simp only [State.storeOrCount, h]

theorem State.takeAppend_alone {s : State} (h : s.journal.tally.isEmpty = true) (tick hc : W32) (body : EntryBody) :
    s.takeAppend tick hc body = s.storeOrCount tick hc body := by rw [State.takeAppend, if_pos h]

/-- The GAP that reports the tally, as the entry it becomes. -/
def Journal.gapEntry (j : Journal) (tick hc : W32) : Entry :=
  { seq := j.nextSeq, tick := tick, hc := hc, body := .gap j.tally.counts j.tally.first j.tally.last }

/-- The append itself, as the entry it becomes after a GAP. -/
def Journal.entryAfterGap (j : Journal) (tick hc : W32) (body : EntryBody) : Entry :=
  { seq := seqSucc j.nextSeq, tick := tick, hc := hc, body := body }

theorem State.takeAppend_after_gap {s s' : State} {tick hc : W32} {seq : W32} (ht : s.journal.tally.isEmpty = false)
    (h : s.tryStore tick hc (.gap s.journal.tally.counts s.journal.tally.first s.journal.tally.last) = (s', some seq))
    (body : EntryBody) : s.takeAppend tick hc body = s'.emptyTally.storeOrCount tick hc body := by
  rw [State.takeAppend, if_neg (by rw [ht]; exact Bool.false_ne_true)]
  simp only [h]
  rfl

/-- The loss of one entry alone in the tally. -/
def LossTally.only (cls : EntryClass) (tick : W32) : LossTally :=
  { counts := (PerClass.all 0).set cls 1, first := tick, last := tick }

theorem LossTally.count_empty (cls : EntryClass) (tick : W32) : LossTally.empty.count cls tick = .only cls tick := by
  cases cls <;> rfl

section
variable {s : State} {tick hc : W32} {body : EntryBody} {entries : List Entry} {move : Session → Session}

/-- The append after a stored GAP, with room for it (R15). -/
theorem State.takeAppend_gap_room (ht : s.journal.tally.isEmpty = false)
    (hg : s.tryStore tick hc (.gap s.journal.tally.counts s.journal.tally.first s.journal.tally.last) =
      (s.afterAppend (entries ++ [s.journal.gapEntry tick hc]) (seqSucc s.journal.nextSeq) s.journal.tally move, some s.journal.nextSeq))
    (room : entries.length + 1 < journalCapacity) :
    (s.takeAppend tick hc body).1 = s.afterAppend (entries ++ [s.journal.gapEntry tick hc, s.journal.entryAfterGap tick hc body])
      (seqSucc (seqSucc s.journal.nextSeq)) .empty move := by
  have store := State.tryStore_room (s := s.afterAppend (entries ++ [s.journal.gapEntry tick hc]) (seqSucc s.journal.nextSeq) .empty move)
    (by simpa [State.afterAppend] using room) tick hc body
  rw [State.takeAppend_after_gap ht hg, State.afterAppend_emptyTally, State.storeOrCount_stored store, State.afterAppend_afterAppend]
  simp only [State.afterAppend, List.append_assoc]
  rfl

/-- The append after a stored GAP, in the place of the oldest entry there is by then (R16, R18, R19). -/
theorem State.takeAppend_gap_evicts {e : Entry} (ht : s.journal.tally.isEmpty = false)
    (hg : s.tryStore tick hc (.gap s.journal.tally.counts s.journal.tally.first s.journal.tally.last) =
      (s.afterAppend (e :: entries ++ [s.journal.gapEntry tick hc]) (seqSucc s.journal.nextSeq) s.journal.tally move,
        some s.journal.nextSeq))
    (full : entries.length + 2 = journalCapacity)
    (free : ¬ ∃ p x, s.token = some p ∧ s.session p = some x ∧ (move x).pinsEntry (seqSucc s.journal.nextSeq) e = true) :
    (s.takeAppend tick hc body).1 = s.afterAppend (entries ++ [s.journal.gapEntry tick hc, s.journal.entryAfterGap tick hc body])
      (seqSucc (seqSucc s.journal.nextSeq)) .empty fun x => (move x).passRemoved (seqSucc s.journal.nextSeq) e := by
  have store := State.tryStore_evicts
    (s := s.afterAppend (e :: entries ++ [s.journal.gapEntry tick hc]) (seqSucc s.journal.nextSeq) .empty move)
    (List.cons_append ..)
    (by simpa [State.afterAppend] using full) (by rwa [← Bool.not_eq_true, State.heldBack_afterAppend]) tick hc body
  rw [State.takeAppend_after_gap ht hg, State.afterAppend_emptyTally, State.storeOrCount_stored store, State.afterAppend_afterAppend]
  simp only [State.afterAppend, List.append_assoc]
  rfl

/-- The append after a stored GAP, refused: it is alone in the tally (R13, R17). -/
theorem State.takeAppend_gap_refused {e : Entry} (ht : s.journal.tally.isEmpty = false)
    (hg : s.tryStore tick hc (.gap s.journal.tally.counts s.journal.tally.first s.journal.tally.last) =
      (s.afterAppend (e :: entries ++ [s.journal.gapEntry tick hc]) (seqSucc s.journal.nextSeq) s.journal.tally move,
        some s.journal.nextSeq))
    (full : entries.length + 2 = journalCapacity)
    (held : ∃ p x, s.token = some p ∧ s.session p = some x ∧ (move x).pinsEntry (seqSucc s.journal.nextSeq) e = true) :
    (s.takeAppend tick hc body).1 = s.afterAppend (e :: entries ++ [s.journal.gapEntry tick hc]) (seqSucc s.journal.nextSeq)
      (.only body.cls tick) move := by
  have store := State.tryStore_refused
    (s := s.afterAppend (e :: entries ++ [s.journal.gapEntry tick hc]) (seqSucc s.journal.nextSeq) .empty move)
    (List.cons_append ..)
    (by simpa [State.afterAppend] using full) ((State.heldBack_afterAppend ..).mpr held) tick hc body
  rw [State.takeAppend_after_gap ht hg, State.afterAppend_emptyTally, State.storeOrCount_refused store, ← LossTally.count_empty]
  rfl

end

/-! ### The command, and the terms of the statements -/

/-- The state without the append that is taken. -/
def State.setWaiting (s : State) (rest : List Append) : State := { s with journal := { s.journal with waiting := rest } }

/-- JOURNAL_APPEND takes the oldest waiting append of its block (R12). -/
theorem exec_journalAppend {src : Source} {s : State} {a : Append} {rest : List Append} (hrun : s.pins.resetLow = false)
    (ha : firstOf src s.journal.waiting = some (a, rest)) :
    exec (.journalAppend src) s = .next ((s.setWaiting rest).takeAppend a.tick a.hc a.body).1.drive := by
  show execJournalAppend src s = _
  rw [execJournalAppend, State.whenRunning_of_running hrun]
  simp only [ha]
  rfl

theorem LossTally.isEmpty_iff (t : LossTally) : t.isEmpty = true ↔ t.counts = PerClass.all 0 := by
  simp only [LossTally.isEmpty, List.all_eq_true, beq_iff_eq]
  constructor
  · exact fun h => PerClass.ext_get fun c => by rw [h c (by cases c <;> decide), PerClass.get_all]
  · exact fun h c _ => by rw [h, PerClass.get_all]

/-- What the removal of an entry does to a session, in the terms of R18 and R19. -/
theorem Session.passRemoved_eq (x : Session) (next : W32) (e : Entry) : x.passRemoved next e =
    { x with
      overrunCount := if x.pinsEntry next e then min 65535 (x.overrunCount + 1) else x.overrunCount
      latches := { x.latches with overrun := x.latches.overrun || x.pinsEntry next e }
      cursor := if distance next e.seq ≤ distance next x.cursor then seqSucc e.seq else x.cursor
      ackPoint := if distance next e.seq ≤ distance next x.ackPoint then seqSucc e.seq else x.ackPoint } := by
  simp only [Session.passRemoved, atOrBefore, decide_eq_true_eq]
  rfl

/-- Settles O13: the room case of a store attempt, and of the append that is that attempt alone. -/
theorem storeWithRoom : Obligations.StoreWithRoom := by
  refine ⟨fun s tick hc body room => ?_, fun src s a rest hrun ha ht room => ?_⟩
  · rw [State.tryStore_room room, State.afterAppend_id]
    rfl
  · rw [exec_journalAppend hrun ha, State.takeAppend_room (s := s.setWaiting rest) _ _ _ ht room]
    rfl

/-- Settles O14: the eviction case of the append that is a store attempt alone. -/
theorem evictionMovesReaders : Obligations.EvictionMovesReaders := by
  intro src s a rest e es hrun ha ht he full hfree next
  have free : (s.setWaiting rest).heldBack e = false := by
    rw [← Bool.not_eq_true, State.heldBack_iff]
    rintro ⟨p, x, htok, hx, hp⟩
    exact absurd ((hfree p x htok hx).symm.trans hp) Bool.false_ne_true
  have store := State.tryStore_evicts (s := s.setWaiting rest) he full free a.tick a.hc a.body
  rw [exec_journalAppend hrun ha, State.takeAppend_alone (s := s.setWaiting rest) ht, State.storeOrCount_stored store]
  refine ⟨_, rfl, rfl, fun p hp => ?_, fun p x hx => ?_, rfl⟩
  · rw [State.session_drive, State.afterAppend_session]
    exact Option.map_eq_none_iff.mpr hp
  · rw [State.session_drive, State.afterAppend_session, ← Session.passRemoved_eq]
    exact Option.map_eq_some_iff.mpr ⟨x, hx, rfl⟩

/-- Settles O15: the refused store attempt, of the append or of its GAP. -/
theorem holdBlocksTheJournal : Obligations.HoldBlocksTheJournal := by
  intro src s a rest e es p x hrun ha he full htok hx hp tally
  have held : (s.setWaiting rest).heldBack e = true := (State.heldBack_iff _ _).mpr ⟨p, x, htok, hx, hp⟩
  rw [exec_journalAppend hrun ha, State.takeAppend_held (s := s.setWaiting rest) _ _ _ he full held]
  simp only [← LossTally.isEmpty_iff]
  rfl

/-- Settles O16: the GAP takes a free place or that of the oldest entry, and then the append does, or is alone in the tally. -/
theorem gapBeforeTheEntry : Obligations.GapBeforeTheEntry := by
  intro src s a rest hrun ha ht j next gap own empty onlyOwn past leaves heldBack
  have hexec := exec_journalAppend hrun ha
  have hpast : past = fun n e x => x.passRemoved n e := by
    funext n e x
    exact (x.passRemoved_eq n e).symm
  clear_value past
  subst hpast
  let w := s.setWaiting rest
  refine ⟨fun h => ?_, fun e es he h => ?_, fun e f es he h free => ?_⟩
  · have hg := State.tryStore_room (s := w) (Nat.lt_succ_of_lt h) a.tick a.hc gap.body
    rw [hexec, State.takeAppend_gap_room (s := w) ht hg (Nat.succ_lt_succ h), State.afterAppend_id]
    rfl
  · have hlen : es.length + 2 = journalCapacity := by rw [he] at h; exact congrArg Nat.succ h
    have hg := State.tryStore_room (s := w) (h.trans_lt (Nat.lt_succ_self _)) a.tick a.hc gap.body
    rw [show w.journal.entries = e :: es from he] at hg
    refine ⟨fun free => ?_, fun held => ?_⟩
    · show exec _ _ = _
      rw [hexec, State.takeAppend_gap_evicts (s := w) ht hg hlen free]
      rfl
    · show exec _ _ = _
      rw [hexec, State.takeAppend_gap_refused (s := w) ht hg hlen held]
      rfl
  · have hlen : es.length + 2 = journalCapacity := by rw [he] at h; exact h
    have unheld : w.heldBack e = false := by rwa [← Bool.not_eq_true, State.heldBack_iff]
    have hg := State.tryStore_evicts (s := w) he h unheld a.tick a.hc gap.body
    refine ⟨fun free' => ?_, fun held => ?_⟩
    · show exec _ _ = _
      rw [hexec, State.takeAppend_gap_evicts (s := w) ht hg hlen free']
      rfl
    · show exec _ _ = _
      rw [hexec, State.takeAppend_gap_refused (s := w) ht hg hlen held]
      rfl

end Sys2Proof.Machine
end

section
/-! SUPPORT. What each reset leaves: the values of the state that a reset leaves, the commands that bring it, and the laws there. -/

namespace Sys2Proof.Machine

/-! ### The state that a reset leaves -/

/-- Right after a reset no line is driven low: no session is open. -/
theorem State.drive_afterReset (cause : RestartCause) (epoch : W16) (s3 : EnergyCfg) (kept : PerAcc (W48 × Int))
    (residues : PerPulse Nat) (pins : Pins) (draws : Nat) (pending : List Instr) :
    (State.afterReset cause epoch s3 kept residues pins draws pending).drive =
      State.afterReset cause epoch s3 kept residues pins draws pending := rfl

theorem State.drive_restarted (s : State) (cause : RestartCause) (pins : Pins) :
    (s.restarted cause pins).drive = s.restarted cause pins := State.drive_afterReset ..

theorem State.reset_isReset : State.reset.IsReset := ⟨_, _, _, _, _, _, _, _, (State.drive_afterReset ..).symm⟩

/-- No detector is enabled by its default record, so that each starts IDLE (R82). -/
theorem Detector.starting_default (d : DetId) : Detector.starting (detDefaults.get d) =
    { state := .idle, run := 0, cfg := detDefaults.get d, episode := 0, startHc := 0, extreme := 0, age := 0, span := 0
      tallyCount := 0, tallySum := 0 } := by cases d <;> rfl

theorem DetectorBank.afterReset_det (d : DetId) :
    DetectorBank.afterReset.dets.get d = Detector.starting (detDefaults.get d) := PerDet.get_mapWith ..

theorem EnergyBlock.afterReset_acc (s3 : EnergyCfg) (kept : PerAcc (W48 × Int)) (residues : PerPulse Nat) (a : AccId) :
    (EnergyBlock.afterReset s3 kept residues).acc.get a =
      { value := (kept.get a).1, residue := (kept.get a).2, gate := .running, creepRun := 0, lastHc := 0 } := PerAcc.get_mapWith ..

theorem EnergyBlock.afterReset_engine (s3 : EnergyCfg) (kept : PerAcc (W48 × Int)) (residues : PerPulse Nat) (e : PulseId) :
    (EnergyBlock.afterReset s3 kept residues).engines.get e =
      { residue := residues.get e, pending := 0, lost := 0, phase := .idle } := PerPulse.get_mapWith ..

theorem State.reset_link (k : SyncId) : State.reset.links.get k = SyncLink.afterReset := PerSync.get_all ..

/-- Settles O6: each block holds its values after a reset; the detectors, accumulators, pulse outputs and ports one by one. -/
theorem resetState : Obligations.ResetState := by
  refine ⟨rfl, State.reset_isReset.session, rfl,
    -- the Front End
    rfl, rfl, rfl, rfl, rfl, rfl, rfl, rfl, rfl, rfl,
    -- the Detector Bank
    fun d => (DetectorBank.afterReset_det d).trans (Detector.starting_default d), rfl, rfl,
    -- the Capture Store
    rfl, rfl, rfl, rfl, rfl, rfl, rfl,
    -- the Energy Block
    fun a => ?_, fun e => ?_, rfl, rfl, rfl, rfl, rfl, rfl, rfl,
    -- the Configuration Controller and the lease
    rfl, rfl, rfl, rfl, rfl, rfl, rfl, rfl,
    -- the ports
    fun k => ?_, rfl, rfl, rfl, rfl, rfl, rfl, rfl, rfl, rfl⟩
  · exact (EnergyBlock.afterReset_acc ..).trans (by rw [PerAcc.get_all])
  · exact (EnergyBlock.afterReset_engine ..).trans (by cases e <;> rfl)
  · rw [State.reset_link]
    exact ⟨rfl, rfl, rfl, rfl, rfl, rfl⟩

/-! ### The commands that bring a reset -/

theorem exec_pinReset {s : State} (h : s.pins.resetLow = false) :
    exec .pinReset s = .next (s.restarted .pin { s.pins with resetLow := true }) := by
  show execPinReset s = _
  rw [execPinReset, if_neg (by rw [h]; exact Bool.false_ne_true), State.done, State.drive_restarted]

theorem exec_restartTimeout {s : State} {due : W32} (h : s.pins.resetLow = false) (hd : s.config.restartDue = some due)
    (hr : reached s.front.tick due = true) : exec .restartTimeout s = .next (s.restarted .request s.pins) := by
  show execRestartTimeout s = _
  rw [execRestartTimeout, State.whenRunning_of_running h]
  simp only [hd, State.nowTick, hr, if_true, State.restartNow, State.drive_restarted]

/-- Settles O7: the state after a power-on reset, under the pins, the draws and the queue that the reset does not touch. -/
theorem powerOnReset : Obligations.PowerOnReset := fun s =>
  congrArg Host.Outcome.next (State.drive_afterReset .powerOn 1 energyDefaults (PerAcc.all (0, 0)) ⟨0, 0⟩ s.pins s.draws s.pending)

/-- Settles O8: what `State.restarted` leaves, under the pins of each cause, and the release. -/
theorem pinResetAndRestart : Obligations.PinResetAndRestart := by
  refine ⟨fun s h => ⟨_, exec_pinReset h, rfl, rfl, rfl⟩, fun s due h hd hr => ?_, fun s h => ?_⟩
  · refine ⟨_, exec_restartTimeout h hd hr, rfl, rfl, rfl, rfl, rfl, rfl, rfl, rfl, rfl, rfl, rfl, fun a => ?_, fun e => ?_, rfl⟩
    · exact (EnergyBlock.afterReset_acc ..).trans (by rw [PerAcc.get_mapWith])
    · exact (EnergyBlock.afterReset_engine ..).trans (by rw [PerPulse.get_mapWith])
  · show execResetRelease s = _
    rw [execResetRelease, if_pos h]
    rfl

/-! ### The laws right after a reset -/

/-- Settles O23: the laws of the journal and of the counters hold after every reset; the others speak of sessions, waiters and sealed
captures, and there are none. -/
theorem lawsAtReset : Obligations.LawsAtReset := by
  have reset := State.reset_isReset
  refine ⟨reset.journalLaw, fun p x h => ?_, fun p h => ?_, ?_, ?_, reset.bounded⟩
  · rw [reset.session] at h
    cases h
  · rw [reset.token] at h
    cases h
  · exact ⟨fun _ h => (Option.some_ne_none _ h.symm).elim, fun _ => rfl, List.nodup_nil, Nat.zero_le 2,
      fun _ h => absurd h List.not_mem_nil⟩
  · exact ⟨List.nodup_singleton _, fun _ h => absurd h List.not_mem_nil, fun h => StoreMode.noConfusion h⟩

end Sys2Proof.Machine
end

section
/-! SUPPORT. A request served on a port that can take it, and the requests that open a session (R25, R35, R172, R174). -/

namespace Sys2Proof.Machine

/-! ### A request served -/

@[simp] theorem State.session_setSession (s : State) (p : Port) (x : Option Session) : (s.setSession p x).session p = x :=
  PerPort.get_set_self s.sessions p x

theorem State.setSession_setSession (s : State) (p : Port) (x y : Option Session) :
    (s.setSession p x).setSession p y = s.setSession p y := by
  simp only [State.setSession, PerPort.set_set]

/-- Nothing is set on a port without a session. -/
theorem State.restartIdle_none {s : State} {p : Port} (hx : s.session p = none) : s.restartIdle p = s := by
  have hx' : s.sessions.get p = none := hx
  have same := PerPort.set_get_self s.sessions p
  rw [hx'] at same
  rw [State.restartIdle, State.onSession, hx', Option.map_none, same]

/-- A request of an open session is answered as its block has it, after the idle deadline is set. -/
theorem exec_replied {s t : State} {p : Port} {tag : Byte} {x : Session} {r : Request} {reply : Reply} (h : s.readyFor p)
    (hx : s.session p = some x) (hr : r.wellFormed = true)
    (hp : (s.setSession p (some (s.touched p x))).perform p (s.deadlineFrom p) r = (t, reply)) :
    exec (commandOf p tag r) s = .next (t.replied p tag reply) := by
  rw [exec_commandOf s p tag hr h (fun _ => by rw [hx]; rfl), State.restartIdle_eq s p hx, State.serve, hp]
  rfl

/-- The same of a request that needs no session, on a port without one. -/
theorem exec_replied_closed {s t : State} {p : Port} {tag : Byte} {r : Request} {reply : Reply} (h : s.readyFor p)
    (hx : s.session p = none) (hr : r.wellFormed = true) (hn : (reqCodeOf r).needsSession = false)
    (hp : s.perform p (s.deadlineFrom p) r = (t, reply)) : exec (commandOf p tag r) s = .next (t.replied p tag reply) := by
  rw [exec_commandOf s p tag hr h (fun hs => by rw [hn] at hs; cases hs), State.restartIdle_none hx, State.serve, hp]
  rfl

/-! ### Flags -/

theorem isFlag_iff (b : Byte) : isFlag b = true ↔ b.toNat ≤ 1 := decide_eq_true_iff

theorem isFlag_eq_false_iff (b : Byte) : isFlag b = false ↔ 1 < b.toNat := by
  rw [← Bool.not_eq_true, isFlag_iff, not_le]

/-- A flag byte is the byte of its flag. -/
theorem flagByte_eq_one (b : Byte) (h : b.toNat ≤ 1) : flagByte (b == 1) = b := by
  by_cases h1 : b = 1
  · subst h1; rfl
  · have h0 : b = 0 := BitVec.eq_of_toNat_eq (by
      have : b.toNat ≠ 1 := fun e => h1 (BitVec.eq_of_toNat_eq e)
      show b.toNat = 0
      omega)
    subst h0; rfl

/-! ### The refusals of HOLD (R35) -/

theorem State.permitsHold_iff (s : State) (p : Port) : s.permitsHold p = true ↔ (s.config.committed.host.get p).holdPermit = 1 :=
  beq_iff_eq

theorem State.holdTaken_iff (s : State) (p : Port) : s.holdTaken p = true ↔ ∃ q, s.token = some q ∧ q ≠ p := by
  cases ht : s.token <;> simp [State.holdTaken, ht]

theorem State.holdRefusal_notPermitted {s : State} {p : Port} (h : (s.config.committed.host.get p).holdPermit ≠ 1) :
    s.holdRefusal p = some .notPermitted := by
  have hp : s.permitsHold p = false := by rwa [← Bool.not_eq_true, State.permitsHold_iff]
  simp only [State.holdRefusal, hp, Bool.not_false, if_true]

theorem State.holdRefusal_taken {s : State} {p q : Port} (h : (s.config.committed.host.get p).holdPermit = 1)
    (ht : s.token = some q) (hq : q ≠ p) : s.holdRefusal p = some .holdTaken := by
  have hp : s.permitsHold p = true := (State.permitsHold_iff ..).mpr h
  have htaken : s.holdTaken p = true := (State.holdTaken_iff ..).mpr ⟨q, ht, hq⟩
  simp only [State.holdRefusal, hp, htaken, Bool.not_true, Bool.false_eq_true, if_false, if_true]

theorem State.holdRefusal_none {s : State} {p : Port} (h : (s.config.committed.host.get p).holdPermit = 1)
    (ht : ∀ q, s.token = some q → q = p) : s.holdRefusal p = none := by
  have hp : s.permitsHold p = true := (State.permitsHold_iff ..).mpr h
  have hfree : s.holdTaken p = false := by
    rw [← Bool.not_eq_true, State.holdTaken_iff]
    rintro ⟨q, hq, hne⟩
    exact hne (ht q hq)
  simp only [State.holdRefusal, hp, hfree, Bool.not_true, Bool.false_eq_true, if_false]

/-! ### OPEN_SESSION, check by check (R25, R172) -/

section
variable {s : State} {p : Port} {deadline : Option W32} {start retention : Byte}

theorem reqOpenSession_badValue (h : ¬ (start.toNat ≤ 1 ∧ retention.toNat ≤ 1)) :
    reqOpenSession p deadline start retention s = (s, Reply.refuse .badValue) := by
  have hf : (!isFlag start || !isFlag retention) = true := by
    rw [← Bool.not_and, Bool.not_eq_true', ← Bool.not_eq_true, Bool.and_eq_true, isFlag_iff, isFlag_iff]
    exact h
  rw [reqOpenSession, if_pos hf]

/-- Arguments in range pass the first check. -/
theorem argsBad_eq_false (h : start.toNat ≤ 1 ∧ retention.toNat ≤ 1) : (!isFlag start || !isFlag retention) = false := by
  rw [(isFlag_iff start).mpr h.1, (isFlag_iff retention).mpr h.2]
  rfl

theorem reqOpenSession_alreadyOpen {x : Session} (h : start.toNat ≤ 1 ∧ retention.toNat ≤ 1) (hx : s.session p = some x) :
    reqOpenSession p deadline start retention s = (s, Reply.refuse .alreadyOpen) := by
  simp only [reqOpenSession, argsBad_eq_false h, hx, Option.isSome_some, Bool.false_eq_true, if_false, if_true]

theorem reqOpenSession_noHold {st : Status} (h : start.toNat ≤ 1 ∧ retention.toNat ≤ 1) (hx : s.session p = none)
    (hr : retention = 1) (hst : s.holdRefusal p = some st) :
    reqOpenSession p deadline start retention s = (s, Reply.refuse st) := by
  subst hr
  simp only [reqOpenSession, argsBad_eq_false h, hx, hst, Option.isSome_none, Bool.false_eq_true, if_false, if_true]

theorem reqOpenSession_admitted (h : start.toNat ≤ 1 ∧ retention.toNat ≤ 1) (hx : s.session p = none)
    (hr : retention = 1 → s.holdRefusal p = none) :
    reqOpenSession p deadline start retention s = s.openSession p deadline (start == 1) (retention == 1) := by
  have hnone : (if retention = 1 then s.holdRefusal p else none) = none := by
    split
    · exact hr ‹_›
    · rfl
  simp only [reqOpenSession, argsBad_eq_false h, hx, hnone, Option.isSome_none, Bool.false_eq_true, if_false]

end

/-- With nothing waiting the journal has nothing to take. -/
theorem State.settle_nil {s : State} (h : s.journal.waiting = []) : s.settle = s := by
  rw [State.settle, h, List.foldl_nil, ← h]

/-- An append that needs its outcome, with nothing waiting, an empty tally and room (R15). -/
theorem State.appendNow_alone {s : State} (hw : s.journal.waiting = []) (ht : s.journal.tally.isEmpty = true)
    (room : s.journal.entries.length < journalCapacity) (body : EntryBody) :
    s.appendNow body = ({ s with journal := s.journal.push s.nowTick s.nowHc body }, some s.journal.nextSeq) := by
  rw [State.appendNow, State.settle_nil hw, State.takeAppend_room _ _ _ ht room]

/-- Settles O44: each refusal is the check of `reqOpenSession` that the case fails first. -/
theorem sessionRefused : Obligations.SessionRefused := by
  intro s p tag start retention ready run argsOk permit
  refine ⟨fun x hx hbad => ?_, fun hx hbad => ?_, fun x hx ok => ?_, fun hx ok hr hp => ?_, fun q hx ok hr hp ht hq => ?_⟩
  · exact exec_onlyReplied (r := .openSession start retention) ready hx rfl (reqOpenSession_badValue hbad)
  · exact exec_replied_closed (r := .openSession start retention) ready hx rfl rfl (reqOpenSession_badValue hbad)
  · exact exec_onlyReplied (r := .openSession start retention) ready hx rfl
      (reqOpenSession_alreadyOpen ok (State.session_setSession ..))
  · exact exec_replied_closed (r := .openSession start retention) ready hx rfl rfl
      (reqOpenSession_noHold ok hx hr (State.holdRefusal_notPermitted hp))
  · exact exec_replied_closed (r := .openSession start retention) ready hx rfl rfl
      (reqOpenSession_noHold ok hx hr (State.holdRefusal_taken hp ht hq))

/-! ### A session made -/

/-- What opening a session leaves where its entry is stored at once (R25, R172). -/
def State.withOpened (s : State) (p : Port) (deadline : Option W32) (fromOldest hold : Bool) : State :=
  { s with
    sessions := s.sessions.set p
      (some (Session.fresh (if fromOldest then s.journal.oldestSeq else s.journal.nextSeq) deadline))
    token := if hold then some p else s.token
    journal := s.journal.push s.nowTick s.nowHc (.sessionEvent p .opened) }

/-- OPEN_SESSION, its checks passed: the record made after the journal took what waited, and then the entry (R172, log 4). -/
theorem State.openSession_eq (s : State) (p : Port) (deadline : Option W32) (fromOldest hold : Bool) :
    s.openSession p deadline fromOldest hold =
      (((s.settle.opened p
          (Session.fresh (if fromOldest then s.settle.journal.oldestSeq else s.settle.journal.nextSeq) deadline) hold).appendNow
            (.sessionEvent p .opened)).1,
        Reply.ok (be16 s.settle.journal.epoch ++ be16 s.settle.config.generation ++ be32 s.settle.journal.nextSeq
          ++ be32 (if fromOldest then s.settle.journal.oldestSeq else s.settle.journal.nextSeq) ++ [flagByte hold])) := by
  cases hold <;> rfl

theorem State.openSession_room {s : State} (hw : s.journal.waiting = []) (ht : s.journal.tally.isEmpty = true)
    (room : s.journal.entries.length < journalCapacity) (p : Port) (deadline : Option W32) (fromOldest hold : Bool) :
    s.openSession p deadline fromOldest hold = (s.withOpened p deadline fromOldest hold,
      Reply.ok (be16 s.journal.epoch ++ be16 s.config.generation ++ be32 s.journal.nextSeq
        ++ be32 (if fromOldest then s.journal.oldestSeq else s.journal.nextSeq) ++ [flagByte hold])) := by
  rw [State.openSession_eq, State.settle_nil hw, State.appendNow_alone] <;> rw [State.opened_journal]
  · cases hold <;> rfl
  · exact hw
  · exact ht
  · exact room

/-- The general checks passed, the frame of a request is served (R161, R175). -/
theorem State.takeRequestFrame_frameOf {s : State} {p : Port} {tag : Byte} {r : Request} (hr : r.wellFormed = true)
    (hd : s.config.restartDue = none) (hs : (reqCodeOf r).needsSession = true → (s.session p).isSome = true) (deadline : Option W32) :
    s.takeRequestFrame p deadline (frameOf tag r) = s.serve p deadline tag r := by
  simp only [State.takeRequestFrame, State.judge_frameOf s p tag hr hd hs]
  rfl

/-- A held frame is taken as the response before it is delivered (R169). -/
theorem exec_responseSent_held {s : State} {r : Response} {h : HeldFrame} (hrun : s.pins.resetLow = false)
    (hs : s.portC.sending = some r) (hr : r.restartOk = false) (hh : s.portC.held = some h) :
    exec .responseSent s = .next
      (State.takeRequestFrame { s with portC := { s.portC with sending := none, held := none } } .c h.deadline h.frame).drive := by
  show execResponseSent s = _
  rw [execResponseSent, State.whenRunning_of_running hrun]
  simp only [hs, State.responseDelivered, hr, hh]
  rfl

/-- Settles O43: the request served at once, and as a frame that port C held. -/
theorem sessionOpens : Obligations.SessionOpens := by
  unfold Obligations.SessionOpens
  intro admitted opened
  have performs : ∀ (s : State) (p : Port) (deadline : Option W32) (start retention : Byte), admitted s p start retention →
      reqOpenSession p deadline start retention s = (s.withOpened p deadline (start == 1) (retention == 1),
        Reply.ok (be16 s.journal.epoch ++ be16 s.config.generation ++ be32 s.journal.nextSeq
          ++ be32 (if start == 1 then s.journal.oldestSeq else s.journal.nextSeq) ++ [retention])) := by
    rintro s p deadline start retention ⟨hx, hstart, hret, hhold, hw, ht, room⟩
    rw [reqOpenSession_admitted ⟨hstart, hret⟩ hx fun h => State.holdRefusal_none (hhold h).1 (hhold h).2,
      State.openSession_room hw ht room, flagByte_eq_one retention hret]
  have same : ∀ (s : State) (p : Port) (tag start retention : Byte) (deadline : Option W32),
      (s.withOpened p deadline (start == 1) (retention == 1)).replied p tag
        (Reply.ok (be16 s.journal.epoch ++ be16 s.config.generation ++ be32 s.journal.nextSeq
          ++ be32 (if start == 1 then s.journal.oldestSeq else s.journal.nextSeq) ++ [retention]))
        = opened s p tag start retention deadline := by
    intro s p tag start retention deadline
    simp only [opened, State.withOpened, Journal.push, beq_iff_eq]
    rfl
  refine ⟨fun s p tag start retention ready adm => ?_, fun s r tag start retention deadline hrun hd hs hr hh adm => ?_⟩
  · exact (exec_replied_closed (r := .openSession start retention) ready adm.1 rfl rfl (performs s p _ start retention adm)).trans
      (congrArg Host.Outcome.next (same s p tag start retention _))
  · intro idle
    have taken := State.takeRequestFrame_frameOf (s := idle) (p := .c) (tag := tag) (r := .openSession start retention) rfl hd
      (fun h => by cases h) deadline
    have served : (idle.takeRequestFrame .c deadline (frameOf tag (.openSession start retention))).drive =
        opened idle .c tag start retention deadline := by
      rw [taken, ← same, State.serve]
      simp only [State.perform, performs idle .c deadline start retention adm]
      rfl
    exact (exec_responseSent_held hrun hs hr hh).trans (congrArg Host.Outcome.next served)

end Sys2Proof.Machine
end

section
/-! SUPPORT. The readers' requests (chapter 2): ACK_ENTRIES, REWIND, SET_SUBSCRIPTION and SET_RETENTION case by case, and READ_ENTRIES with its
walk. -/

namespace Sys2Proof.Machine

/-- A request that leaves its session another record, and everything else as it is. -/
theorem exec_moved {s : State} {p : Port} {tag : Byte} {x y : Session} {r : Request} {reply : Reply} (h : s.readyFor p)
    (hx : s.session p = some x) (hr : r.wellFormed = true)
    (hp : (s.setSession p (some (s.touched p x))).perform p (s.deadlineFrom p) r =
      ((s.setSession p (some (s.touched p x))).setSession p (some y), reply)) :
    exec (commandOf p tag r) s = .next ((s.setSession p (some y)).replied p tag reply) := by
  rw [State.setSession_setSession] at hp
  exact exec_replied h hx hr hp

/-! ### ACK_ENTRIES (R32) -/

section
variable {s : State} {p : Port} {x : Session}

theorem atOrBefore_eq_false {next a b : W32} (h : distance next a < distance next b) : atOrBefore next a b = false :=
  decide_eq_false (not_le.mpr h)

theorem reqAckEntries_zero (hx : s.session p = some x) : reqAckEntries p 0 s = (s, Reply.refuse .badValue) := by
  rw [reqAckEntries, State.withSession_some hx]
  exact if_pos rfl

theorem reqAckEntries_beyond {seq : W32} (hx : s.session p = some x) (h0 : seq ≠ 0)
    (h : distance s.journal.nextSeq seq ≤ distance s.journal.nextSeq x.cursor) :
    reqAckEntries p seq s = (s, Reply.refuse .badAck) := by
  have hc : atOrBefore s.journal.nextSeq x.cursor seq = true := decide_eq_true h
  rw [reqAckEntries, State.withSession_some hx]
  simp only [h0, hc, if_false, if_true]

theorem reqAckEntries_again {seq : W32} (hx : s.session p = some x) (h0 : seq ≠ 0)
    (h1 : distance s.journal.nextSeq x.cursor < distance s.journal.nextSeq seq)
    (h2 : distance s.journal.nextSeq x.ackPoint ≤ distance s.journal.nextSeq (seqSucc seq)) :
    reqAckEntries p seq s = (s, Reply.ok (be32 x.ackPoint)) := by
  have ha : atOrBefore s.journal.nextSeq (seqSucc seq) x.ackPoint = true := decide_eq_true h2
  rw [reqAckEntries, State.withSession_some hx]
  simp only [h0, atOrBefore_eq_false h1, ha, Bool.false_eq_true, if_false, if_true]

theorem reqAckEntries_moves {seq : W32} (hx : s.session p = some x) (h0 : seq ≠ 0)
    (h1 : distance s.journal.nextSeq x.cursor < distance s.journal.nextSeq seq)
    (h2 : distance s.journal.nextSeq (seqSucc seq) < distance s.journal.nextSeq x.ackPoint) :
    reqAckEntries p seq s = (s.setSession p (some { x with ackPoint := seqSucc seq }), Reply.ok (be32 (seqSucc seq))) := by
  rw [reqAckEntries, State.withSession_some hx]
  simp only [h0, atOrBefore_eq_false h1, atOrBefore_eq_false h2, Bool.false_eq_true, if_false]

/-! ### SET_RETENTION (R35, R36) -/

theorem reqSetRetention_badValue {retention : Byte} (hx : s.session p = some x) (h : 1 < retention.toNat) :
    reqSetRetention p retention s = (s, Reply.refuse .badValue) := by
  rw [reqSetRetention, State.withSession_some hx]
  simp only [(isFlag_eq_false_iff retention).mpr h, Bool.not_false, if_true]

theorem reqSetRetention_refused {st : Status} (hx : s.session p = some x) (h : s.holdRefusal p = some st) :
    reqSetRetention p 1 s = (s, Reply.refuse st) := by
  have hf : isFlag 1 = true := rfl
  rw [reqSetRetention, State.withSession_some hx]
  simp only [hf, h, Bool.not_true, Bool.false_eq_true, if_false, if_true]

theorem reqSetRetention_hold (hx : s.session p = some x) (h : s.holdRefusal p = none) :
    reqSetRetention p 1 s = ({ s with token := some p }, Reply.ok []) := by
  have hf : isFlag 1 = true := rfl
  rw [reqSetRetention, State.withSession_some hx]
  simp only [hf, h, Bool.not_true, Bool.false_eq_true, if_false, if_true]

theorem reqSetRetention_yield (hx : s.session p = some x) :
    reqSetRetention p 0 s = (if s.inHold p then s.freeToken else s, Reply.ok []) := by
  have hf : isFlag 0 = true := rfl
  have h01 : ¬ ((0 : Byte) = 1) := by decide
  rw [reqSetRetention, State.withSession_some hx]
  simp only [hf, h01, Bool.not_true, Bool.false_eq_true, if_false]
  split <;> rfl

end

/-- Settles O55: case by case, with the record that the idle deadline gave the session before. -/
theorem readerRequests : Obligations.ReaderRequests := by
  intro s p tag x ready hx y next permit
  have hy : (s.setSession p (some y)).session p = some y := State.session_setSession ..
  refine ⟨fun seq h0 h1 h2 => ?_, fun seq h0 h1 h2 => ?_, fun seq h0 h1 => ?_, ?_, ?_, fun mask => ?_, fun hp ht => ?_, fun hp => ?_,
    fun q hp ht hq => ?_, fun ht => ?_, fun ht => ?_, fun retention h => ?_⟩
  · exact exec_moved (r := .ackEntries seq) ready hx rfl (reqAckEntries_moves hy h0 h1 h2)
  · exact exec_onlyReplied (r := .ackEntries seq) ready hx rfl (reqAckEntries_again (x := y) hy h0 h1 h2)
  · exact exec_onlyReplied (r := .ackEntries seq) ready hx rfl (reqAckEntries_beyond hy h0 h1)
  · exact exec_onlyReplied (r := .ackEntries 0) ready hx rfl (reqAckEntries_zero hy)
  · exact exec_moved (r := .rewind) ready hx rfl (State.withSession_some hy _)
  · exact exec_moved (r := .setSubscription mask) ready hx rfl (State.withSession_some hy _)
  · exact exec_replied (r := .setRetention 1) ready hx rfl (reqSetRetention_hold hy (State.holdRefusal_none hp ht))
  · exact exec_onlyReplied (r := .setRetention 1) ready hx rfl (reqSetRetention_refused hy (State.holdRefusal_notPermitted hp))
  · exact exec_onlyReplied (r := .setRetention 1) ready hx rfl (reqSetRetention_refused hy (State.holdRefusal_taken hp ht hq))
  · have hh : (s.setSession p (some y)).inHold p = true := beq_iff_eq.mpr ht
    exact exec_replied (r := .setRetention 0) ready hx rfl ((reqSetRetention_yield hy).trans (by rw [if_pos hh]; rfl))
  · have hh : (s.setSession p (some y)).inHold p = false := beq_eq_false_iff_ne.mpr ht
    exact exec_onlyReplied (r := .setRetention 0) ready hx rfl
      ((reqSetRetention_yield hy).trans (by rw [hh, if_neg Bool.false_ne_true]))
  · exact exec_onlyReplied (r := .setRetention retention) ready hx rfl (reqSetRetention_badValue hy h)

/-! ### READ_ENTRIES: its argument and what it delivers (R28 to R31) -/

theorem readByteOk_iff (b : Byte) :
    readByteOk b = true ↔ 1 ≤ (b &&& 0x0F).toNat ∧ (b &&& 0x0F).toNat ≤ 8 ∧ b &&& 0x70 = 0 := by
  simp [readByteOk, readCount, and_assoc]

/-- The entries from a cursor on, in the terms of their distance. -/
theorem Journal.fromCursor_eq (j : Journal) (cursor : W32) : j.fromCursor cursor =
    j.entries.dropWhile fun e => decide (distance j.nextSeq cursor < distance j.nextSeq e.seq) := by
  simp only [Journal.fromCursor, Entry.atOrAfter, atOrBefore, ← decide_not, not_le]

/-- A session after a read, as one record. -/
theorem Session.read_eq (x : Session) (j : Journal) (max : Nat) (auto : Bool) :
    x.read j max auto =
      ({ x with
          cursor := (walk x.mask max 0 0 (j.fromCursor x.cursor)).2.getD j.nextSeq
          ackPoint := if auto then (walk x.mask max 0 0 (j.fromCursor x.cursor)).2.getD j.nextSeq else x.ackPoint
          latches := { x.latches with overrun := false } },
        (walk x.mask max 0 0 (j.fromCursor x.cursor)).1) := by
  cases h : (walk x.mask max 0 0 (j.fromCursor x.cursor)).2 <;> simp only [Session.read, h] <;> rfl

section
variable {s : State} {p : Port} {x : Session} {b : Byte}

theorem reqReadEntries_badValue (hx : s.session p = some x)
    (h : ¬ (1 ≤ (b &&& 0x0F).toNat ∧ (b &&& 0x0F).toNat ≤ 8 ∧ b &&& 0x70 = 0)) :
    reqReadEntries p b s = (s, Reply.refuse .badValue) := by
  have hb : readByteOk b = false := by rwa [← Bool.not_eq_true, readByteOk_iff]
  rw [reqReadEntries, State.withSession_some hx]
  simp only [hb, Bool.not_false, if_true]

theorem reqReadEntries_ok (hx : s.session p = some x)
    (h : 1 ≤ (b &&& 0x0F).toNat ∧ (b &&& 0x0F).toNat ≤ 8 ∧ b &&& 0x70 = 0) :
    reqReadEntries p b s =
      (s.setSession p (some (x.read s.journal (readCount b) (readAutoAck b)).1),
        Reply.ok ((bitAt 0 x.latches.overrun
            ||| bitAt 1 ((x.read s.journal (readCount b) (readAutoAck b)).1.deliverableCount s.journal != 0))
          :: byteOf (x.read s.journal (readCount b) (readAutoAck b)).2.length
          :: (x.read s.journal (readCount b) (readAutoAck b)).2.flatMap Entry.bytes)) := by
  rw [reqReadEntries, State.withSession_some hx]
  simp only [(readByteOk_iff b).mpr h, Bool.not_true, Bool.false_eq_true, if_false]

end

/-! ### The walk (R28, R29) -/

/-- The bytes that entries take. -/
def wireSizes (l : List Entry) : Nat := (l.map Entry.wireSize).sum

/-- What a walk that has delivered `count` entries of `bytes` bytes goes on to deliver: the subscribed entries, in order, until the count or
the bytes have no room for the next, at which it stops. -/
theorem walk_spec (mask : Byte) (max : Nat) (l : List Entry) : ∀ count bytes : Nat, count ≤ max → bytes ≤ entryBytesLimit →
    count + (walk mask max count bytes l).1.length ≤ max
      ∧ bytes + wireSizes (walk mask max count bytes l).1 ≤ entryBytesLimit
      ∧ ∃ rest, (l.filter fun e => maskHas mask e.body.cls) = (walk mask max count bytes l).1 ++ rest
        ∧ (walk mask max count bytes l).2 = rest.head?.map Entry.seq
        ∧ ∀ e, rest.head? = some e → count + (walk mask max count bytes l).1.length = max
          ∨ entryBytesLimit < bytes + wireSizes (walk mask max count bytes l).1 + e.wireSize := by
  induction l with
  | nil => exact fun count bytes hc hb => ⟨hc, hb, [], rfl, rfl, fun e he => by cases he⟩
  | cons e l ih =>
    intro count bytes hc hb
    by_cases hm : maskHas mask e.body.cls = true
    · have hfilter := List.filter_cons_of_pos (p := fun e : Entry => maskHas mask e.body.cls) (l := l) hm
      by_cases room : count < max ∧ bytes + e.wireSize ≤ entryBytesLimit
      · have hw : walk mask max count bytes (e :: l) =
            (e :: (walk mask max (count + 1) (bytes + e.wireSize) l).1, (walk mask max (count + 1) (bytes + e.wireSize) l).2) := by
          simp only [walk, hm, room, Bool.not_true, Bool.false_eq_true, if_false, if_true, and_self]
        obtain ⟨h1, h2, rest, hf, hs, hr⟩ := ih (count + 1) (bytes + e.wireSize) room.1 room.2
        rw [hw]
        have hsum : wireSizes (e :: (walk mask max (count + 1) (bytes + e.wireSize) l).1) =
            e.wireSize + wireSizes (walk mask max (count + 1) (bytes + e.wireSize) l).1 := by simp [wireSizes]
        refine ⟨?_, ?_, rest, ?_, hs, fun f hf' => ?_⟩
        · rw [List.length_cons]; omega
        · rw [hsum]; omega
        · rw [hfilter, hf]; rfl
        · rw [hsum, List.length_cons]
          rcases hr f hf' with h | h
          · exact .inl (by omega)
          · exact .inr (by omega)
      · have hw : walk mask max count bytes (e :: l) = ([], some e.seq) := by
          simp only [walk, hm, room, Bool.not_true, Bool.false_eq_true, if_false]
        rw [hw]
        refine ⟨hc, hb, e :: l.filter fun e => maskHas mask e.body.cls, hfilter, rfl, fun f hf => ?_⟩
        cases hf
        show count = max ∨ entryBytesLimit < bytes + e.wireSize
        omega
    · have hw : walk mask max count bytes (e :: l) = walk mask max count bytes l := by
        simp only [walk, hm, Bool.not_false, if_true]
      rw [hw, List.filter_cons_of_neg (p := fun e : Entry => maskHas mask e.body.cls) hm]
      exact ih count bytes hc hb

/-! ### Entries on the wire (R29, R183) -/

theorem slotBytes_length (l : List SlotId) : (slotBytes l).length = 4 := by simp [slotBytes]

/-- A payload has between 1 and 27 bytes, if a note has its 16. -/
theorem EntryBody.payload_length (body : EntryBody) :
    1 ≤ body.payload.length ∧ ((∀ host data, body = .note host data → data.length = 16) → body.payload.length ≤ 27) := by
  cases body with
  | note host data =>
    refine ⟨by simp [EntryBody.payload], fun h => ?_⟩
    have := h host data rfl
    simp [EntryBody.payload, this]
  | _ => simp [EntryBody.payload, be16, be32, be16n, be24n, be48, accBytes, slotBytes_length]

theorem Entry.bytes_length (e : Entry) : e.bytes.length = e.wireSize := by
  simp [Entry.bytes, Entry.wireSize, be32]
  omega

/-- Settles O54: the request with its walk, what a walk delivers, and the sizes of entries. -/
theorem readEntries : Obligations.ReadEntries := by
  refine ⟨fun s p tag b x ready hx => ?_, fun mask max l => ?_, fun e => ?_⟩
  · have hy : (s.setSession p (some (s.touched p x))).session p = some (s.touched p x) := State.session_setSession ..
    refine ⟨fun h => ?_, fun h => ?_⟩
    · have performed := reqReadEntries_ok hy h
      rw [Session.read_eq, Journal.fromCursor_eq] at performed
      exact exec_moved (r := .readEntries b) ready hx rfl performed
    · exact exec_onlyReplied (r := .readEntries b) ready hx rfl (reqReadEntries_badValue hy h)
  · obtain ⟨h1, h2, rest, hf, hs, hr⟩ := walk_spec mask max l 0 0 (Nat.zero_le _) (Nat.zero_le _)
    simp only [Nat.zero_add] at h1 h2 hr
    exact ⟨h1, h2, rest, hf, hs, hr⟩
  · obtain ⟨h1, h2⟩ := e.body.payload_length
    refine ⟨e.bytes_length, ?_, fun h => ?_⟩
    · rw [Entry.wireSize]; omega
    · have := h2 h
      rw [Entry.wireSize]; omega

end Sys2Proof.Machine
end

section
/-! SUPPORT. The Capture Store under a new S2 and under the report of a free HOLD token: taking a slot when it arms or tries again (R96, R97), and
what a committed S2 brings about by the store's mode (R104, R105). -/

namespace Sys2Proof.Machine

/-! ### Arming (R96, R97, R104) -/

/-- The lowest slot that is not in use. -/
theorem lowestFree_eq {used : List SlotId} {i : SlotId} (h : i ∉ used) (hlow : ∀ k < i, k ∈ used) : lowestFree used = some i := by
  rw [lowestFree, List.find?_eq_some_iff_append]
  refine ⟨by simpa using h, allSlots.take i.val, allSlots.drop (i.val + 1), ?_, fun k hk => ?_⟩
  · clear h hlow; revert i; decide
  · have : k < i := by clear h hlow; revert i k; decide
    simpa using hlow k this

section
variable {s : State}

theorem State.armStore_free {i : SlotId} (h : i ∉ s.store.sealedCaptures.flatMap Capture.slots)
    (hlow : ∀ k < i, k ∈ s.store.sealedCaptures.flatMap Capture.slots) (tick hc : W32) :
    s.armStore tick hc = s.setMode (.live i []) := by
  simp only [State.armStore, State.takeSlot, List.append_nil, lowestFree_eq h hlow]

theorem State.armStore_reclaims {c : Capture} {i : SlotId} (full : ∀ k : SlotId, k ∈ s.store.sealedCaptures.flatMap Capture.slots)
    (hr : c.Reclaimed s.token s.store.sealedCaptures) (hi : IsLowest c.slots i) (tick hc : W32) :
    s.armStore tick hc = (s.withReclaimed c tick hc).setMode (.live i []) := by
  simp only [State.armStore,
    State.takeSlot_reclaims (busy := []) tick hc (fun k => List.mem_append_left _ (full k)) hr hi]

theorem State.armStore_starves (full : ∀ k : SlotId, k ∈ s.store.sealedCaptures.flatMap Capture.slots)
    (hh : ∀ b ∈ s.store.sealedCaptures, b.HeldByHold s.token) (tick hc : W32) : s.armStore tick hc = s.setMode .starved := by
  simp only [State.armStore, State.takeSlot_none (busy := []) tick hc (fun k => List.mem_append_left _ (full k)) hh]

theorem State.retryStarved_starved (h : s.store.mode = .starved) : s.retryStarved = s.armStore s.nowTick s.nowHc :=
  s.retryStarved_cases.elim (fun k => k.2) fun k => absurd h k.1

theorem State.retryStarved_other (h : s.store.mode ≠ .starved) : s.retryStarved = s :=
  s.retryStarved_cases.elim (fun k => absurd k.1 h) fun k => k.2

theorem State.setMode_same {m : StoreMode} (h : s.store.mode = m) : s.setMode m = s := by
  subst h; rfl

/-! ### A committed S2, by the store's mode (R104, R105) -/

/-- The S2 in force replaced (R85). -/
def State.withS2 (s : State) (new : CapCfg) : State := { s with store := { s.store with s2 := new } }

variable {new : CapCfg}

theorem State.takeS2_unchanged (h : new = s.store.s2) : s.takeS2 new = s.withS2 new := by
  subst h
  simp only [State.takeS2, ne_eq, and_not_self, not_and_self, if_false, if_true]
  rfl

theorem State.takeS2_disarms_live {slot : SlotId} {ring : List Frame} (hm : s.store.mode = .live slot ring)
    (hold : s.store.s2.armed = 1) (hnew : new.armed ≠ 1) : s.takeS2 new = (s.withS2 new).setMode .disarmed := by
  simp only [State.takeS2, hold, hnew, hm, ne_eq, not_false_eq_true, and_self, if_true]
  rfl

theorem State.takeS2_disarms_starved (hm : s.store.mode = .starved) (hold : s.store.s2.armed = 1) (hnew : new.armed ≠ 1) :
    s.takeS2 new = (s.withS2 new).setMode .disarmed := by
  simp only [State.takeS2, hold, hnew, hm, ne_eq, not_false_eq_true, and_self, if_true]
  rfl

theorem State.takeS2_arms (hm : s.store.mode = .disarmed) (hold : s.store.s2.armed ≠ 1) (hnew : new.armed = 1) :
    s.takeS2 new = (s.withS2 new).armStore s.nowTick s.nowHc := by
  simp only [State.takeS2, State.withS2, State.nowTick, State.nowHc, hold, hnew, hm, ne_eq, not_false_eq_true, not_true_eq_false,
    and_self, if_true, if_false]

/-- A change that neither arms nor disarms lets a STARVED store try again, and does nothing else (R97). -/
theorem State.takeS2_armedKept (h : new.armed = s.store.s2.armed) (hne : new ≠ s.store.s2) :
    s.takeS2 new = (s.withS2 new).retryStarved := by
  simp only [State.takeS2, h, hne.symm, ne_eq, and_not_self, not_and_self, if_false]
  rfl

/-- Any change leaves a recording store to its capture (R105). -/
theorem State.takeS2_post {c : Capture} (hm : s.store.mode = .post c) : s.takeS2 new = s.withS2 new := by
  have hretry : (s.withS2 new).retryStarved = s.withS2 new := State.retryStarved_other (s := s.withS2 new) (by
    show s.store.mode ≠ .starved
    rw [hm]
    exact fun h => StoreMode.noConfusion h)
  simp only [State.withS2, hm] at hretry
  simp only [State.takeS2, State.withS2, hm, hretry, ite_self]

end

/-! ### The commands -/

theorem exec_captureConfig {s : State} {new : CapCfg} {rest : List CapEvent} (hrun : s.pins.resetLow = false)
    (h : firstConfig s.store.inbox = some (new, rest)) : exec .captureConfig s = .next ((s.setCapInbox rest).takeS2 new).drive := by
  show execCaptureConfig s = _
  rw [execCaptureConfig, State.whenRunning_of_running hrun]
  simp only [h]

theorem exec_captureTokenFree {s : State} {rest : List CapEvent} (hrun : s.pins.resetLow = false)
    (h : firstTokenFree s.store.inbox = some rest) :
    exec .captureTokenFree s = .next (s.setCapInbox rest).retryStarved.drive := by
  show execCaptureTokenFree s = _
  rw [execCaptureTokenFree, State.whenRunning_of_running hrun]
  simp only [h]

/-- A capture that nobody holds is reclaimed with no session latched. -/
theorem State.withReclaimed_unheld {s : State} {c : Capture} (h : c.holders = PerPort.all false) (tick hc : W32) :
    s.withReclaimed c tick hc = { s with
      store := { s.store with sealedCaptures := s.store.sealedCaptures.filter fun x => decide (x.id ≠ c.id) }
      journal := { s.journal with
        waiting := s.journal.waiting ++ [⟨.captureStore, tick, hc, .captureReclaimed c.id (PerPort.all false)⟩] } } := by
  have same := PerPort.mapWith_self s.sessions
    (f := fun p y => if c.holders.get p then { y with latches := { y.latches with captureReclaimed := true } } else y)
    fun p y => if_neg (by rw [h, PerPort.get_all]; exact Bool.false_ne_true)
  rw [State.withReclaimed, same, h]

/-- A capture's own record alone leaves the seal order, where no other has its id. -/
theorem filter_id_ne {before after : List Capture} {c : Capture} (h : ∀ b ∈ before ++ after, b.id ≠ c.id) :
    ((before ++ c :: after).filter fun x => decide (x.id ≠ c.id)) = before ++ after := by
  have keep : ∀ l : List Capture, (∀ b ∈ l, b.id ≠ c.id) → (l.filter fun x => decide (x.id ≠ c.id)) = l :=
    fun l hl => List.filter_eq_self.mpr fun b hb => decide_eq_true (hl b hb)
  rw [List.filter_append, List.filter_cons_of_neg (p := fun x : Capture => decide (x.id ≠ c.id)) (by simp),
    keep before fun b hb => h b (List.mem_append_left _ hb), keep after fun b hb => h b (List.mem_append_right _ hb)]

/-- Settles O31: CAPTURE_CONFIG by the mode that it finds, and the report of a free HOLD token as a retry. -/
theorem storeReconfigured : Obligations.StoreReconfigured := by
  refine ⟨?_, fun s rest hrun hfirst => ?_⟩
  · intro s new rest hrun hfirst taken full wants
    let u := s.setCapInbox rest
    have zero_ne_one : (0 : W16) ≠ 1 := by decide
    have run : ∀ {t : State}, u.takeS2 new = t → exec .captureConfig s = .next t.drive := fun h =>
      (exec_captureConfig hrun hfirst).trans (congrArg (fun t : State => Host.Outcome.next t.drive) h)
    -- what the store does where it wants a slot: it arms, with the counters as they stand
    have arms : wants → u.takeS2 new = taken.armStore s.front.tick s.front.hc := by
      rintro (⟨hm, hold, hnew⟩ | ⟨hm, hold, hnew, hne⟩)
      · exact State.takeS2_arms (s := u) hm (by rw [show u.store.s2.armed = 0 from hold]; exact zero_ne_one) hnew
      · exact (State.takeS2_armedKept (s := u) (hnew.trans hold.symm) hne).trans (State.retryStarved_starved (s := taken) hm)
    refine ⟨fun slot ring hm hold hnew => ?_, fun i hm hold hnew hi hlow => ?_, fun hm hkept => ?_, fun c hm => ?_,
      fun hm hold hnew => ?_, fun hm hsame => ?_, fun v i hw hfull hr hi => ?_, fun hw hfull hh => ?_⟩
    · exact run (State.takeS2_disarms_live (s := u) hm hold (by rw [hnew]; exact zero_ne_one))
    · exact run ((arms (.inl ⟨hm, hold, hnew⟩)).trans (State.armStore_free (s := taken) hi hlow _ _))
    · by_cases hsame : new = s.store.s2
      · exact run (State.takeS2_unchanged (s := u) hsame)
      · exact run ((State.takeS2_armedKept (s := u) hkept hsame).trans (State.retryStarved_other (s := taken) hm))
    · exact run (State.takeS2_post (s := u) hm)
    · exact run (State.takeS2_disarms_starved (s := u) hm hold (by rw [hnew]; exact zero_ne_one))
    · exact run (State.takeS2_unchanged (s := u) hsame)
    · exact run ((arms hw).trans (State.armStore_reclaims (s := taken) hfull hr hi _ _))
    · exact run ((arms hw).trans (State.armStore_starves (s := taken) hfull hh _ _))
  · let taken := s.setCapInbox rest
    have run : ∀ {t : State}, taken.retryStarved = t → exec .captureTokenFree s = .next t.drive := fun h =>
      (exec_captureTokenFree hrun hfirst).trans (congrArg (fun t : State => Host.Outcome.next t.drive) h)
    refine ⟨fun hm => run (State.retryStarved_other (s := taken) hm),
      fun before after c i hm hsealed full hheld hfree hid hi hlow => ?_, ?_⟩
    · have hr : c.Reclaimed taken.token taken.store.sealedCaptures := ⟨before, after, hsealed, .inl ⟨hfree, hheld⟩⟩
      have retried := (State.retryStarved_starved (s := taken) hm).trans
        (State.armStore_reclaims (s := taken) full hr ⟨hi, hlow⟩ _ _)
      have hleft : (taken.store.sealedCaptures.filter fun x => decide (x.id ≠ c.id)) = before ++ after := by
        rw [show taken.store.sealedCaptures = before ++ c :: after from hsealed, filter_id_ne hid]
      rw [State.withReclaimed_unheld hfree, hleft] at retried
      exact ⟨_, run retried, rfl, rfl, rfl⟩
    · intro hm full _
      have arms := State.retryStarved_starved (s := taken) hm
      refine ⟨fun v i hr hi => ?_, fun hh => ?_⟩
      · exact run (arms.trans (State.armStore_reclaims (s := taken) full hr hi _ _))
      · exact run ((arms.trans (State.armStore_starves (s := taken) full hh _ _)).trans (State.setMode_same (s := taken) hm))

end Sys2Proof.Machine
end

section
/-! SUPPORT. The requests that read (R41, R77, R101 to R103, R116, R179): the views of the Capture Store in the terms of its mode and records, the
layouts of R182 and R184, and READ_FRAMES check by check. -/

namespace Sys2Proof.Machine

/-! ### Views of the Capture Store -/

theorem CaptureStore.mem_recording {st : CaptureStore} {c : Capture} : c ∈ st.recording.toList ↔ st.mode = .post c := by
  cases hm : st.mode <;> simp [CaptureStore.recording, hm, eq_comm]

theorem CaptureStore.isLive_iff (st : CaptureStore) (i : SlotId) : st.isLive i = true ↔ ∃ ring, st.mode = .live i ring := by
  cases hm : st.mode <;> simp [CaptureStore.isLive, hm]

theorem CaptureStore.isPost_iff (st : CaptureStore) (i : SlotId) :
    st.isPost i = true ↔ ∃ c, st.mode = .post c ∧ c.slots.getLast? = some i := by
  cases hm : st.mode <;> simp [CaptureStore.isPost, CaptureStore.recording, hm]

theorem CaptureStore.slotState_code (st : CaptureStore) (i : SlotId) : (st.slotState i).code =
    if st.isLive i = true then 1 else if st.isPost i = true then 2 else if i ∈ st.table.flatMap Capture.slots then 3 else 0 := by
  have hany : (st.table.any fun c => c.slots.contains i) = true ↔ i ∈ st.table.flatMap Capture.slots := by
    simp [List.mem_flatMap]
  simp only [CaptureStore.slotState, hany]
  split
  · rfl
  · split
    · rfl
    · split <;> rfl

/-- A record found has the id, and stands in the table. -/
theorem CaptureStore.find_some {st : CaptureStore} {id : W16} {c : Capture} (h : st.find id = some c) : c ∈ st.table ∧ c.id = id :=
  ⟨List.mem_of_find?_eq_some h, beq_iff_eq.mp (List.find?_some (p := fun c : Capture => c.id == id) h)⟩

theorem CaptureStore.find_none {st : CaptureStore} {id : W16} (h : ∀ c ∈ st.table, c.id ≠ id) : st.find id = none :=
  List.find?_eq_none.mpr fun c hc => by simpa using h c hc

/-- The recording capture is found by its id, unless a sealed one has it. -/
theorem CaptureStore.find_recording {st : CaptureStore} {c : Capture} (hm : st.mode = .post c)
    (hd : ∀ d ∈ st.sealedCaptures, d.id ≠ c.id) : st.find c.id = some c := by
  have hs : st.sealedCaptures.find? (fun d => d.id == c.id) = none :=
    List.find?_eq_none.mpr fun d hd' => by simpa using hd d hd'
  have hr : st.recording = some c := by simp only [CaptureStore.recording, hm]
  rw [CaptureStore.find, CaptureStore.table, List.find?_append, hs, hr]
  simp

theorem CaptureStore.captureState_recording {st : CaptureStore} {c : Capture} (hm : st.mode = .post c) : st.captureState c = 0 := by
  simp only [CaptureStore.captureState, CaptureStore.recording, hm, if_true]

theorem CaptureStore.captureState_sealed {st : CaptureStore} {c : Capture} (h : ∀ r, st.mode = .post r → r.id ≠ c.id) :
    st.captureState c = 1 := by
  cases hm : st.mode with
  | post r => simp only [CaptureStore.captureState, CaptureStore.recording, hm, h r hm, if_false]
  | _ => simp only [CaptureStore.captureState, CaptureStore.recording, hm]

/-! ### Layouts (R5, R182) -/

/-- The slot list of a record, filled up with $FF (R5, log 25). -/
theorem slotBytes_eq (l : List SlotId) :
    slotBytes l = [0, 1, 2, 3].map fun n => (l[n]?.map fun (i : SlotId) => byteOf i.val).getD 0xFF := by
  match l with
  | [] => rfl
  | [_] => rfl
  | [_, _] => rfl
  | [_, _, _] => rfl
  | _ :: _ :: _ :: _ :: _ => rfl

theorem CapFlags.byte_eq (f : CapFlags) :
    f.byte = byteOf ((if f.shortPre then 1 else 0) + (if f.chained then 2 else 0) + if f.chainCut then 4 else 0) := by
  obtain ⟨a, b, c⟩ := f
  cases a <;> cases b <;> cases c <;> rfl

theorem HostSet.toByte_eq (h : HostSet) :
    HostSet.toByte h = byteOf ((if h.a then 1 else 0) + (if h.b then 2 else 0) + if h.c then 4 else 0) := by
  obtain ⟨a, b, c⟩ := h
  cases a <;> cases b <;> cases c <;> rfl

theorem TrigSource.code_release (d : DetId) : (TrigSource.release d).code = byteOf (8 + d.number) := by cases d <;> rfl

/-- A record of STORE_STATUS, with its state and its frames to record as given. -/
def Capture.recordBytes (c : Capture) (state : Byte) (toRecord : Nat) : List Byte :=
  be16 c.id ++ [state] ++ slotBytes c.slots ++ [byteOf c.chainLimit] ++ be16n c.pre ++ be16n c.recorded ++ be16n toRecord
    ++ be32 c.firstTick ++ be32 c.firstHc
    ++ [flagByte c.continueFlag, c.flags.byte, byteOf c.extra, HostSet.toByte c.holders, byteOf c.triggers.length]
    ++ c.triggers.flatMap TrigEntry.bytes

theorem CaptureStore.recordBytes_recording {st : CaptureStore} {c : Capture} (hm : st.mode = .post c) :
    st.recordBytes c = c.recordBytes 0 c.toRecord := by
  simp only [CaptureStore.recordBytes, CaptureStore.captureState_recording hm, if_true]
  rfl

theorem CaptureStore.recordBytes_sealed {st : CaptureStore} {c : Capture} (h : ∀ r, st.mode = .post r → r.id ≠ c.id) :
    st.recordBytes c = c.recordBytes 1 0 := by
  have h10 : ¬ ((1 : Byte) = 0) := by decide
  simp only [CaptureStore.recordBytes, CaptureStore.captureState_sealed h, h10, if_false]
  rfl

/-! ### STORE_STATUS and READ_FRAMES (R101, R103) -/

section
variable {s : State} {id : W16} {part : Byte} {offset : W16} {count : Byte} {c : Capture}

theorem reqStoreStatus_gone (h0 : id ≠ 0) (h : s.store.find id = none) : reqStoreStatus id s = (s, Reply.refuse .gone) := by
  simp only [reqStoreStatus, h0, h, if_false]

theorem reqStoreStatus_found (h0 : id ≠ 0) (h : s.store.find id = some c) :
    reqStoreStatus id s = (s, Reply.ok (s.store.statusBytes ++ s.store.recordBytes c)) := by
  simp only [reqStoreStatus, h0, h, if_false]

/-- The arguments of READ_FRAMES that the first check refuses. -/
theorem framesArgsOk_eq_false_iff : framesArgsOk id part offset count = false ↔
    id = 0 ∨ 3 < part.toNat ∨ 1023 < offset.toNat ∨ count = 0 ∨ 19 < count.toNat ∨ 1024 < offset.toNat + count.toNat := by
  have h0 : count = 0 ↔ count.toNat < 1 :=
    ⟨fun h => by rw [h]; decide, fun h => BitVec.eq_of_toNat_eq (Nat.lt_one_iff.mp h)⟩
  simp only [framesArgsOk, Bool.and_eq_false_iff, bne_eq_false_iff_eq, decide_eq_false_iff_not, not_le, h0, or_assoc]

theorem reqReadFrames_badArgs (h : framesArgsOk id part offset count = false) :
    reqReadFrames id part offset count s = (s, Reply.refuse .badValue) := by
  simp only [reqReadFrames, h, Bool.not_false, if_true]

section
variable (hargs : framesArgsOk id part offset count = true)
include hargs

theorem reqReadFrames_gone (h : s.store.find id = none) : reqReadFrames id part offset count s = (s, Reply.refuse .gone) := by
  simp only [reqReadFrames, hargs, h, Bool.not_true, Bool.false_eq_true, if_false]

theorem reqReadFrames_notSealed (h : s.store.find id = some c) (hc : s.store.captureState c = 0) :
    reqReadFrames id part offset count s = (s, Reply.refuse .notSealed) := by
  simp only [reqReadFrames, hargs, h, hc, Bool.not_true, Bool.false_eq_true, if_false, if_true]

theorem reqReadFrames_noPart (h : s.store.find id = some c) (hc : s.store.captureState c = 1) (hp : c.slots.length ≤ part.toNat) :
    reqReadFrames id part offset count s = (s, Reply.refuse .badValue) := by
  have h10 : ¬ ((1 : Byte) = 0) := by decide
  simp only [reqReadFrames, hargs, h, hc, h10, hp, Bool.not_true, Bool.false_eq_true, if_false, if_true]

theorem reqReadFrames_frames (h : s.store.find id = some c) (hc : s.store.captureState c = 1) (hp : part.toNat < c.slots.length) :
    reqReadFrames id part offset count s = (s, Reply.ok (be16 id ++ [part] ++ be16 offset ++ [count]
      ++ ((c.frames.drop (part.toNat * slotFrames + offset.toNat)).take count.toNat).flatMap Frame.bytes)) := by
  have h10 : ¬ ((1 : Byte) = 0) := by decide
  simp only [reqReadFrames, hargs, h, hc, h10, not_le.mpr hp, Bool.not_true, Bool.false_eq_true, if_false]

end
end

/-- Settles O56: each payload field by field, in the views and layouts above. -/
theorem statusRequests : Obligations.StatusRequests := by
  intro s p tag x ready hx st answers refused recorded modeCode liveSlot liveCount postSlot slotCode status sourceCode trigger flags
    holders record argsBad detectorCode
  let base := s.setSession p (some (s.touched p x))
  have hbase : base.session p = some (s.touched p x) := State.session_setSession ..
  -- the views
  have hrecorded : recorded = st.recording.toList := by
    simp only [recorded, CaptureStore.recording]; cases st.mode <;> rfl
  have htable : st.sealedCaptures ++ recorded = st.table := by rw [hrecorded]; rfl
  have hmem : ∀ c, c ∈ recorded ↔ st.mode = .post c := fun c => by rw [hrecorded, CaptureStore.mem_recording]
  have hsealed : ∀ {c : Capture} {id : W16}, c.id = id → (∀ r ∈ recorded, r.id ≠ id) → ∀ r, st.mode = .post r → r.id ≠ c.id :=
    fun hid h r hr => hid ▸ h r ((hmem r).mpr hr)
  have hslot : ∀ i, (st.slotState i).code = slotCode i := by
    intro i
    have hlive : st.isLive i = true ↔ liveSlot = some i := by
      rw [CaptureStore.isLive_iff]; simp only [liveSlot]; cases st.mode <;> simp
    have hpost : st.isPost i = true ↔ postSlot = some i := by
      rw [CaptureStore.isPost_iff]; simp only [postSlot]; cases st.mode <;> simp
    simp only [CaptureStore.slotState_code, hlive, hpost, slotCode, htable]
  have hstatus : st.statusBytes = status := by
    have hmode : st.mode.code = modeCode := rfl
    have hcount : st.liveCount = liveCount := rfl
    simp only [CaptureStore.statusBytes, hslot, hmode, hcount]
    rfl
  -- the layouts
  have hrecord : ∀ c state n, c.recordBytes state n = record c state n := by
    intro c state n
    have hsource : ∀ source : TrigSource, source.code = sourceCode source := by
      intro source
      cases source with
      | release d => exact TrigSource.code_release d
      | _ => rfl
    have htrigger : TrigEntry.bytes = trigger := funext fun y => by simp only [TrigEntry.bytes, hsource, trigger]
    have hslots : slotBytes c.slots =
        [0, 1, 2, 3].map fun n => match c.slots[n]? with | none => (0xFF : Byte) | some (i : SlotId) => byteOf i.val := by
      rw [slotBytes_eq]
      refine List.map_congr_left fun n _ => ?_
      cases c.slots[n]? <;> rfl
    simp only [Capture.recordBytes, Capture.recorded, Capture.triggers, List.flatMap_cons, List.length_cons, hslots, htrigger,
      CapFlags.byte_eq, HostSet.toByte_eq, record, List.append_assoc]
    rfl
  have hdetector : detectorCode = DetState.code := funext fun y => by cases y <;> rfl
  -- the requests
  have reads : ∀ (r : Request) (reply : Reply), r.wellFormed = true → base.perform p (s.deadlineFrom p) r = (base, reply) →
      exec (commandOf p tag r) s = .next (s.onlyReplied p tag x reply) := fun r reply hr h => exec_onlyReplied ready hx hr h
  have argsOk : ∀ {id part offset count}, ¬ argsBad id part offset count → framesArgsOk id part offset count = true :=
    fun h => Bool.eq_true_of_not_eq_false fun hf => h (framesArgsOk_eq_false_iff.mp hf)
  refine ⟨?_, ?_, fun id c h0 hc hr => ?_, fun id c h0 hc hid hd => ?_, fun id h0 h => ?_, fun id c hc => ?_,
    fun id part offset count h => ?_, fun id part offset count h => ⟨fun hn => ?_, fun c hc hid hd => ?_, fun c hc hr hp => ?_⟩,
    fun id part offset count c h0 hp hp3 h1 h19 hsum hc hr => ?_, ?_, ?_, ?_, ?_⟩
  · refine reads .captureList _ rfl (congrArg (fun l => (base, Reply.ok l)) ?_)
    show byteOf st.table.length :: st.table.flatMap _ = _
    rw [← htable, List.length_append, List.flatMap_append]
    congr 2
    refine List.flatMap_congr fun c hc => ?_
    rw [CaptureStore.captureState_recording (st := base.store) ((hmem c).mp hc)]
  · exact reads (.storeStatus 0) _ rfl (congrArg (fun l => (base, Reply.ok l)) hstatus)
  · refine reads (.storeStatus id) _ rfl ((reqStoreStatus_found (s := base) h0 hc).trans
      (congrArg (fun l => (base, Reply.ok l)) ?_))
    rw [← hrecord, ← CaptureStore.recordBytes_sealed (hsealed (CaptureStore.find_some hc).2 hr), ← hstatus]
    rfl
  · have hm := (hmem c).mp hc
    subst hid
    refine reads (.storeStatus c.id) _ rfl ((reqStoreStatus_found (s := base) h0 (CaptureStore.find_recording hm hd)).trans
      (congrArg (fun l => (base, Reply.ok l)) ?_))
    rw [← hrecord, ← hstatus]
    exact congrArg (fun l => st.statusBytes ++ l) (CaptureStore.recordBytes_recording hm)
  · exact reads (.storeStatus id) _ rfl (reqStoreStatus_gone (s := base) h0 (CaptureStore.find_none (htable ▸ h)))
  · exact htable ▸ CaptureStore.find_some hc
  · exact reads (.readFrames id part offset count) _ rfl (reqReadFrames_badArgs (framesArgsOk_eq_false_iff.mpr h))
  · exact reads (.readFrames id part offset count) _ rfl
      (reqReadFrames_gone (s := base) (argsOk h) (CaptureStore.find_none (htable ▸ hn)))
  · have hm := (hmem c).mp hc
    subst hid
    exact reads (.readFrames c.id part offset count) _ rfl (reqReadFrames_notSealed (s := base) (argsOk h)
      (CaptureStore.find_recording hm hd) (CaptureStore.captureState_recording hm))
  · exact reads (.readFrames id part offset count) _ rfl (reqReadFrames_noPart (s := base) (argsOk h) hc
      (CaptureStore.captureState_sealed (hsealed (CaptureStore.find_some hc).2 hr)) hp)
  · have hargs : framesArgsOk id part offset count = true := argsOk fun hbad => by
      have hcount : count ≠ 0 := fun h => by rw [h] at h1; exact absurd h1 (by decide)
      simp only [argsBad, h0, hcount, false_or] at hbad
      omega
    exact reads (.readFrames id part offset count) _ rfl (reqReadFrames_frames (s := base) hargs hc
      (CaptureStore.captureState_sealed (hsealed (CaptureStore.find_some hc).2 hr)) hp)
  · exact reads .journalStatus _ rfl (State.withSession_some hbase _)
  · exact reads .readEnergy _ rfl (State.withSession_some hbase _)
  · exact reads .readSet _ rfl (State.withSession_some hbase _)
  · refine reads .detectorStatus _ rfl ?_
    rw [hdetector]
    rfl

end Sys2Proof.Machine
end

section
/-! SUPPORT. A note, CAPTURE_NOW and RELEASE_CAPTURE (R40, R93, R98): the journal that holds back its oldest entry, a trigger by the mode that it
finds, and a host's leaving of a capture. -/

namespace Sys2Proof.Machine

/-! ### A note (R40) -/

/-- With nothing waiting and the oldest of a full journal held back, an append is counted (R13, R17). -/
theorem State.appendNow_held {s : State} (hw : s.journal.waiting = []) {e : Entry} {es : List Entry} (he : s.journal.entries = e :: es)
    (full : s.journal.entries.length = journalCapacity) (hh : s.heldBack e = true) (body : EntryBody) :
    s.appendNow body = (s.countLost s.nowTick body, none) := by
  rw [State.appendNow, State.settle_nil hw, State.takeAppend_held _ _ _ he full hh]

theorem reqAppendNote_stored {s t : State} {p : Port} {data : List Byte} {seq : W32}
    (h : s.appendNow (.note p data) = (t, some seq)) : reqAppendNote p data s = (t, Reply.ok (be32 seq)) := by
  simp only [reqAppendNote, h]

theorem reqAppendNote_counted {s t : State} {p : Port} {data : List Byte} (h : s.appendNow (.note p data) = (t, none)) :
    reqAppendNote p data s = (t, Reply.refuse .notStored) := by
  simp only [reqAppendNote, h]

/-- The touch of an open session leaves what holds an entry back (R16). -/
theorem State.heldBack_touched {s : State} {p : Port} {x : Session} (hx : s.session p = some x) (e : Entry) :
    (s.setSession p (some (s.touched p x))).heldBack e = s.heldBack e := by
  have pins : ∀ q, (s.setSession p (some (s.touched p x))).pinner e q = s.pinner e q := by
    intro q
    by_cases hq : q = p
    · subst hq
      simp only [State.pinner, State.session_setSession, hx]
      rfl
    · have hother : (s.setSession p (some (s.touched p x))).session q = s.session q :=
        PerPort.get_set_ne s.sessions _ hq
      simp only [State.pinner, hother]
      rfl
  simp only [State.heldBack, pins]
  rfl

/-- An idle transmitter of port C takes the frame (R169). -/
theorem State.arriveOnC_idle {s : State} (h : s.portC.sending = none) (deadline : Option W32) (f : RequestFrame) :
    s.arriveOnC deadline f = s.takeRequestFrame .c deadline f := by
  simp only [State.arriveOnC, h]

/-- A complete frame of a length that its code does not take is answered and moves the idle deadline (R175, check 4). -/
theorem exec_badLength {s : State} {p : Port} {tag : Byte} {x : Session} {r : Request} (h : s.readyFor p)
    (hx : s.session p = some x) (hr : (reqCodeOf r).lengthOk (reqPayload r).length = false) :
    exec (commandOf p tag r) s = .next (s.onlyReplied p tag x (Reply.refuse .badLength)) := by
  obtain ⟨hrun, hd, hc⟩ := h
  let base := s.setSession p (some (s.touched p x))
  have hcode : ReqCode.ofByte (frameOf tag r).code = some (reqCodeOf r) := ReqCode.ofByte_byte _
  have hlen : (reqCodeOf r).lengthOk (frameOf tag r).payload.length = false := hr
  have hdue : base.config.restartDue = none := hd
  have refused : ∀ deadline, base.takeRequestFrame p deadline (frameOf tag r) = base.refuseFrame p tag .badLength := by
    intro deadline
    have hj : base.judge p (frameOf tag r) = .fails .badLength := by
      simp [State.judge, frameOf_sum, hcode, hlen, hdue]
    simp only [State.takeRequestFrame, hj]
    rfl
  have arrives : s.request p tag r = base.answer p (responseOf tag (Reply.refuse .badLength)) := by
    have hset := State.restartIdle_eq s p hx
    cases p with
    | a => exact (congrArg (fun t => State.takeRequestFrame t .a _ _) hset).trans (refused _)
    | b => exact (congrArg (fun t => State.takeRequestFrame t .b _ _) hset).trans (refused _)
    | c =>
      have hidle : base.portC.sending = none := hc rfl
      refine (congrArg (fun t => State.arriveOnC t _ _) hset).trans ?_
      exact (State.arriveOnC_idle hidle _ _).trans (refused _)
  have e : exec (commandOf p tag r) s = s.whenRunning fun s => s.request p tag r := by cases r <;> rfl
  rw [e, State.whenRunning_of_running hrun, arrives]
  rfl

/-! ### A trigger by the mode that it finds (R88 to R90, R93) -/

section
variable {s : State} (source : TrigSource) (tick hc : W32)

theorem State.takeTrigger_live {slot : SlotId} {ring : List Frame} (h : s.store.mode = .live slot ring) :
    s.takeTrigger source tick hc = s.startCapture slot ring source tick hc := by simp only [State.takeTrigger, h]

theorem State.takeTrigger_post {c : Capture} (h : s.store.mode = .post c) :
    s.takeTrigger source tick hc = s.setMode (.post (c.joined source hc)) := by simp only [State.takeTrigger, h]

theorem State.takeTrigger_disarmed (h : s.store.mode = .disarmed) :
    s.takeTrigger source tick hc = s.hand .captureStore tick hc (.captureMissed source .disarmed) := by
  simp only [State.takeTrigger, h]

theorem State.takeTrigger_starved (h : s.store.mode = .starved) :
    s.takeTrigger source tick hc = s.hand .captureStore tick hc (.captureMissed source .noSlot) := by
  simp only [State.takeTrigger, h]

end

theorem Capture.listsNext_iff (c : Capture) : c.listsNext = true ↔ c.moreTriggers.length + 1 < 8 := decide_eq_true_iff

/-! ### RELEASE_CAPTURE (R97, R98) -/

/-- The sealed captures after a host left the one of an id. -/
def State.withReleased (s : State) (p : Port) (id : W16) : State :=
  { s with store := { s.store with sealedCaptures := s.store.sealedCaptures.map fun d => if d.id = id then d.dropHolder p else d } }

section
variable {s : State} {p : Port} {id : W16} {c : Capture}

theorem reqReleaseCapture_zero : reqReleaseCapture p 0 s = (s, Reply.refuse .badValue) := rfl

theorem reqReleaseCapture_gone (h0 : id ≠ 0) (h : s.store.find id = none) :
    reqReleaseCapture p id s = (s, Reply.refuse .gone) := by
  simp only [reqReleaseCapture, h0, h, if_false]

theorem reqReleaseCapture_notHolder (h0 : id ≠ 0) (h : s.store.find id = some c) (hp : c.holders.get p = false) :
    reqReleaseCapture p id s = (s, Reply.refuse .notHolder) := by
  simp only [reqReleaseCapture, h0, h, hp, Bool.not_false, if_false, if_true]

/-- A holder leaves, and the HOLD session's leaving lets a STARVED store try again. -/
theorem reqReleaseCapture_held (h0 : id ≠ 0) (h : s.store.find id = some c) (hp : c.holders.get p = true) :
    reqReleaseCapture p id s = (if s.inHold p then (s.withReleased p id).retryStarved else s.withReleased p id,
      Reply.ok [HostSet.toByte (c.holders.set p false)]) := by
  simp only [reqReleaseCapture, h0, h, hp, Bool.not_true, Bool.false_eq_true, if_false]
  rfl

/-- It keeps its slots. -/
theorem State.withReleased_slots (s : State) (p : Port) (id : W16) :
    (s.withReleased p id).store.sealedCaptures.flatMap Capture.slots = s.store.sealedCaptures.flatMap Capture.slots := by
  show (s.store.sealedCaptures.map _).flatMap _ = _
  rw [List.flatMap_map]
  refine List.flatMap_congr fun d _ => ?_
  show (if d.id = id then d.dropHolder p else d).slots = d.slots
  split <;> rfl

/-- No retry comes of it unless the store is STARVED and the host is the HOLD session. -/
theorem State.withReleased_retry (h : s.store.mode ≠ .starved ∨ s.token ≠ some p) :
    (if s.inHold p then (s.withReleased p id).retryStarved else s.withReleased p id) = s.withReleased p id := by
  split
  · have hp : s.token = some p := beq_iff_eq.mp ‹_›
    exact State.retryStarved_other (s := s.withReleased p id) (h.resolve_right fun hn => hn hp)
  · rfl

end

/-- Settles O58: a note by the journal's room, CAPTURE_NOW by the store's mode, RELEASE_CAPTURE check by check. -/
theorem noteAndCaptureRequests : Obligations.NoteAndCaptureRequests := by
  intro s p tag x ready hx base st source recorded
  have hrecorded : recorded = st.recording.toList := by
    simp only [recorded, CaptureStore.recording]; cases st.mode <;> rfl
  have hmiss : ∀ {reason : MissReason}, base.takeTrigger source s.front.tick s.front.hc
        = base.hand .captureStore s.front.tick s.front.hc (.captureMissed source reason) →
      st.nowReply = [2, 0, 0, 0, 0, 0, reason.code] →
      exec (.captureNow p tag) s = .next ((base.hand .captureStore s.front.tick s.front.hc (.captureMissed source reason)).replied p tag
        (Reply.ok [2, 0, 0, 0, 0, 0, reason.code])) := by
    intro reason ht hn
    exact exec_replied (r := .captureNow) ready hx rfl (by rw [← hn, ← ht]; rfl)
  refine ⟨fun data hlen hw ht room => ?_, fun data e es q z hlen hw he full htok hz hpins => ?_, fun slot ring hm => ?_,
    fun c hm => ?_, fun reason h => ?_, ?_, fun id h0 h => ?_, fun data hlen => ?_, fun id c h0 hc => ⟨fun hp => ?_, fun hp h => ?_,
    fun v i hp hm htok full => ?_⟩⟩
  · exact exec_replied (r := .appendNote data) ready hx (decide_eq_true hlen)
      (reqAppendNote_stored (State.appendNow_alone (s := base) hw ht room _))
  · have held : base.heldBack e = true := (State.heldBack_touched hx e).trans ((State.heldBack_iff s e).mpr ⟨q, z, htok, hz, hpins⟩)
    refine (exec_replied (r := .appendNote data) ready hx (decide_eq_true hlen)
      (reqAppendNote_counted (State.appendNow_held (s := base) hw he full held _))).trans ?_
    simp only [← LossTally.isEmpty_iff]
    rfl
  · intro pre
    refine ⟨_, exec_replied (r := .captureNow) (t := base.startCapture slot ring source s.front.tick s.front.hc) ready hx rfl ?_,
      rfl, rfl, rfl⟩
    have hn : st.nowReply = [0] ++ be16 st.nextId ++ be16n pre ++ [0, 0xFF] := by simp only [CaptureStore.nowReply, hm, pre]
    rw [← hn, ← State.takeTrigger_live (s := base) source _ _ hm]
    rfl
  · have hn : st.nowReply = [1] ++ be16 c.id ++ be16n c.frames.length ++ [if c.moreTriggers.length + 1 < 8 then 1 else 0, 0xFF] := by
      simp only [CaptureStore.nowReply, hm, flagByte, Capture.listsNext_iff]
      rfl
    have taken := State.takeTrigger_post (s := base) source s.front.tick s.front.hc hm
    intro c'
    have hjoined : c.joined source s.front.hc = if c.slots.length < c.chainLimit then { c' with continueFlag := true } else c' := by
      simp only [Capture.joined, Capture.listsNext_iff, c']
      rfl
    rw [hjoined] at taken
    refine exec_replied (r := .captureNow) ready hx rfl ?_
    rw [← hn]
    exact congrArg (fun t => (t, Reply.ok st.nowReply)) taken
  · obtain ⟨hm, rfl⟩ | ⟨hm, rfl⟩ := h
    · exact hmiss (State.takeTrigger_disarmed (s := base) source _ _ hm) (by simp only [CaptureStore.nowReply, hm])
    · exact hmiss (State.takeTrigger_starved (s := base) source _ _ hm) (by simp only [CaptureStore.nowReply, hm])
  · exact exec_onlyReplied (r := .releaseCapture 0) ready hx rfl reqReleaseCapture_zero
  · have hnone : st.find id = none := CaptureStore.find_none (by rw [hrecorded] at h; exact h)
    exact exec_onlyReplied (r := .releaseCapture id) ready hx rfl (reqReleaseCapture_gone (s := base) h0 hnone)
  · exact exec_badLength (r := .appendNote data) ready hx (beq_eq_false_iff_ne.mpr hlen)
  · exact exec_onlyReplied (r := .releaseCapture id) ready hx rfl (reqReleaseCapture_notHolder (s := base) h0 hc hp)
  · exact exec_replied (r := .releaseCapture id) (t := base.withReleased p id) ready hx rfl
      ((reqReleaseCapture_held (s := base) h0 hc hp).trans (by rw [State.withReleased_retry (s := base) h]))
  · intro remaining hv hi after
    have hhold : base.inHold p = true := beq_iff_eq.mpr htok
    have hslots : ∀ k : SlotId, k ∈ (base.withReleased p id).store.sealedCaptures.flatMap Capture.slots := fun k => by
      rw [State.withReleased_slots]; exact full k
    have hretry := (State.retryStarved_starved (s := base.withReleased p id) hm).trans
      (State.armStore_reclaims (s := base.withReleased p id) hslots hv hi _ _)
    refine (exec_replied (r := .releaseCapture id) ready hx rfl (reqReleaseCapture_held (s := base) h0 hc hp)).trans ?_
    rw [if_pos hhold, hretry]
    rfl

end Sys2Proof.Machine
end

section
/-! SUPPORT. The HOLD token and the lease with the sessions that they rest on (R26, R132): which work leaves them alone, how the others move
them, and that the law of both is kept. -/

namespace Sys2Proof.Machine

/-! ### What the two laws read -/

/-- The HOLD token, the lease holder, the wait queue, and the ports that have a session. -/
structure Holding where
  token : Option Port
  holder : Option Port
  queue : List Waiter
  isOpen : PerPort Bool

def State.holding (s : State) : Holding :=
  { token := s.token, holder := s.lease.map Tenure.holder, queue := s.queue, isOpen := s.sessions.mapWith fun _ x => x.isSome }

/-- The laws of R26 and R132. -/
structure Holding.Law (h : Holding) : Prop where
  token : ∀ p, h.token = some p → h.isOpen.get p = true
  holder : ∀ p, h.holder = some p → h.isOpen.get p = true ∧ p ∉ h.queue.map Waiter.host
  free : h.holder = none → h.queue = []
  distinct : (h.queue.map Waiter.host).Nodup
  two : h.queue.length ≤ 2
  waiters : ∀ w ∈ h.queue, h.isOpen.get w.host = true

theorem State.holding_isOpen (s : State) (p : Port) : s.holding.isOpen.get p = (s.session p).isSome :=
  PerPort.get_mapWith ..

theorem State.holding_law_iff (s : State) : s.holding.Law ↔ s.TokenLaw ∧ s.LeaseLaw := by
  have held : ∀ t, s.lease = some t → s.holding.holder = some t.holder := fun t h => congrArg (Option.map Tenure.holder) h
  constructor
  · rintro ⟨token, holder, free, distinct, two, waiters⟩
    simp only [State.holding_isOpen] at token holder waiters
    exact ⟨token, fun t ht => holder _ (held t ht), fun h => free (congrArg (Option.map Tenure.holder) h), distinct, two, waiters⟩
  · rintro ⟨token, holder, free, distinct, two, waiters⟩
    refine ⟨fun p h => ?_, fun p h => ?_, fun h => free (Option.map_eq_none_iff.mp h), distinct, two, fun w hw => ?_⟩
    · rw [State.holding_isOpen]; exact token p h
    · obtain ⟨t, ht, rfl⟩ := Option.map_eq_some_iff.mp h
      rw [State.holding_isOpen]; exact holder t ht
    · rw [State.holding_isOpen]; exact waiters w hw

/-- Work that leaves the token, the lease and the queue, and opens and closes no session. -/
theorem State.holding_eq {s t : State} (ht : t.token = s.token) (hl : t.lease = s.lease) (hq : t.queue = s.queue)
    (ho : ∀ p, (t.session p).isSome = (s.session p).isSome) : t.holding = s.holding := by
  have hopen : t.holding.isOpen = s.holding.isOpen := PerPort.ext_get fun p => by
    rw [State.holding_isOpen, State.holding_isOpen, ho]
  simp only [State.holding, ht, hl, hq] at hopen ⊢
  rw [hopen]

/-! ### Updates of the state -/

theorem State.onSession_holding (s : State) (p : Port) (f : Session → Session) : (s.onSession p f).holding = s.holding :=
  State.holding_eq rfl rfl rfl fun q => by
    simp only [State.session, State.onSession_sessions, PerPort.get_set]
    split
    · subst q; exact Option.isSome_map
    · rfl

theorem State.onSessions_holding (s : State) (f : Port → Session → Session) : (s.onSessions f).holding = s.holding :=
  State.holding_eq rfl rfl rfl fun q => by
    simp only [State.session, State.onSessions_sessions, PerPort.get_mapWith, Option.isSome_map]

theorem State.setSession_holding {s : State} {p : Port} {x : Session} (hx : s.session p = some x) (y : Session) :
    (s.setSession p (some y)).holding = s.holding :=
  State.holding_eq rfl rfl rfl fun q => by
    by_cases hq : q = p
    · subst hq; rw [State.session_setSession, hx]; rfl
    · exact congrArg Option.isSome (PerPort.get_set_ne s.sessions _ hq)

theorem State.latch_holding (s : State) (p : Port) (f : Latches → Latches) : (s.latch p f).holding = s.holding :=
  s.onSession_holding p _

theorem State.latchHosts_holding (s : State) (h : HostSet) (f : Latches → Latches) : (s.latchHosts h f).holding = s.holding :=
  s.onSessions_holding _

theorem State.answer_holding (s : State) (p : Port) (r : Response) : (s.answer p r).holding = s.holding := by cases p <;> rfl

theorem State.onCounters_holding (s : State) (p : Port) (f : LinkCounters → LinkCounters) :
    (s.onCounters p f).holding = s.holding := by cases p <;> rfl

theorem State.clearCounters_holding (s : State) (p : Port) : (s.clearCounters p).holding = s.holding := by cases p <;> rfl

/-- Work done once for each of several things. -/
theorem foldl_holding {α : Type} {f : State → α → State} (h : ∀ s a, (f s a).holding = s.holding) (l : List α) (s : State) :
    (l.foldl f s).holding = s.holding := by
  induction l generalizing s with
  | nil => rfl
  | cons a l ih => exact (ih (f s a)).trans (h s a)

/-- Work done or left. -/
theorem ite_holding {s t : State} {c : Prop} [Decidable c] (h : t.holding = s.holding) : (if c then t else s).holding = s.holding := by
  split
  · exact h
  · rfl

/-! ### The journal -/

theorem State.tryStore_holding (s : State) (tick hc : W32) (body : EntryBody) : (s.tryStore tick hc body).1.holding = s.holding := by
  rcases s.tryStore_cases tick hc body with ⟨-, h⟩ | ⟨_, _, -, -, -, h⟩ | ⟨e, rest, -, -, -, h⟩ <;> rw [h]
  · rfl
  · exact State.holding_eq rfl rfl rfl fun p => by rw [State.evicted_session, Option.isSome_map]

theorem State.storeOrCount_holding (s : State) (tick hc : W32) (body : EntryBody) :
    (s.storeOrCount tick hc body).1.holding = s.holding := by
  have k := s.tryStore_holding tick hc body
  rcases s.storeOrCount_cases tick hc body with ⟨_, _, h, h'⟩ | ⟨_, h, h'⟩ <;> (rw [h']; rw [h] at k; exact k)

theorem State.takeAppend_holding (s : State) (tick hc : W32) (body : EntryBody) :
    (s.takeAppend tick hc body).1.holding = s.holding := by
  have gap := s.tryStore_holding tick hc (.gap s.journal.tally.counts s.journal.tally.first s.journal.tally.last)
  rcases s.takeAppend_cases tick hc body with ⟨-, h⟩ | ⟨-, ⟨s', _, hs, h⟩ | ⟨s', hs, h⟩⟩ <;> rw [h]
  · exact s.storeOrCount_holding tick hc body
  · rw [hs] at gap
    exact (s'.emptyTally.storeOrCount_holding tick hc body).trans gap
  · rw [hs] at gap
    exact gap

theorem State.settle_holding (s : State) : s.settle.holding = s.holding :=
  s.settle_induction (fun t => t.holding = s.holding) rfl fun t tick hc body h => (t.takeAppend_holding tick hc body).trans h

theorem State.appendNow_holding (s : State) (body : EntryBody) : (s.appendNow body).1.holding = s.holding :=
  (s.settle.takeAppend_holding _ _ _).trans s.settle_holding

/-! ### The Front End and the Detector Bank -/

theorem State.closeHalfCycle_holding (s : State) (raw : Frame) (polarity : Polarity) (synthetic : Bool) :
    (s.closeHalfCycle raw polarity synthetic).holding = s.holding := by
  obtain ⟨line, run, event, hl⟩ : ∃ line run event, lineAfter s.front.lineState s.front.genuineRun synthetic = (line, run, event) :=
    ⟨_, _, _, rfl⟩
  simp only [State.closeHalfCycle, hl]
  cases event <;> rfl

theorem State.takeFrame_holding (s : State) (raw : Frame) : (s.takeFrame raw).holding = s.holding := by
  have joined : ∀ (t : State) (genuine synthetic : Prop) [Decidable genuine] [Decidable synthetic] (f : Frame) (polarity : Polarity),
      (if genuine then t.closeHalfCycle raw polarity false
        else if synthetic then t.closeHalfCycle raw .noSign true else t.joinFrame f).holding = t.holding := by
    intro t genuine synthetic _ _ f polarity
    split
    · exact t.closeHalfCycle_holding _ _ _
    · split
      · exact t.closeHalfCycle_holding _ _ _
      · rfl
  exact joined _ _ _ _ _

theorem State.openEpisode_holding (s : State) (d : DetId) (x : Detector) (close : HandedClose) :
    (s.openEpisode d x close).holding = s.holding := by
  simp only [State.openEpisode]
  split <;> rfl

theorem State.closeEpisode_holding (s : State) (d : DetId) (x : Detector) (close : HandedClose) :
    (s.closeEpisode d x close).holding = s.holding := by
  simp only [State.closeEpisode]
  split <;> rfl

theorem State.judgeDetector_holding (close : HandedClose) (s : State) (d : DetId) :
    (s.judgeDetector close d).holding = s.holding := by
  unfold State.judgeDetector
  split
  · rfl
  · exact s.openEpisode_holding _ _ _
  · exact s.closeEpisode_holding _ _ _

theorem State.updateDetector_holding (close : HandedClose) (s : State) (d : DetId) :
    (s.updateDetector close d).holding = s.holding := by
  simp only [State.updateDetector]
  split
  · rfl
  · split <;> rfl

theorem State.takeDetectorClose_holding (s : State) (close : HandedClose) : (s.takeDetectorClose close).holding = s.holding :=
  (foldl_holding (State.judgeDetector_holding close) _ _).trans (foldl_holding (State.updateDetector_holding close) _ s)

/-! ### The Capture Store -/

theorem State.reclaim_holding (s : State) (c : Capture) (tick hc : W32) : (s.reclaim c tick hc).holding = s.holding :=
  State.latchHosts_holding _ _ _

theorem State.takeSlot_holding (s : State) (busy : List SlotId) (tick hc : W32) : (s.takeSlot busy tick hc).1.holding = s.holding := by
  rcases s.takeSlot_cases busy tick hc with ⟨i, -, h⟩ | ⟨-, ⟨-, h⟩ | ⟨c, -, h⟩⟩ <;> rw [h]
  exact s.reclaim_holding c tick hc

theorem State.armStore_holding (s : State) (tick hc : W32) : (s.armStore tick hc).holding = s.holding := by
  have slot := s.takeSlot_holding [] tick hc
  rcases s.armStore_cases tick hc with ⟨t, i, ht, h⟩ | ⟨t, ht, h⟩ <;> (rw [h]; rw [ht] at slot; exact slot)

theorem State.retryStarved_holding (s : State) : s.retryStarved.holding = s.holding := by
  rcases s.retryStarved_cases with ⟨-, h⟩ | ⟨-, h⟩ <;> rw [h]
  exact s.armStore_holding _ _

theorem State.completeCapture_holding (s : State) (c : Capture) (tick hc : W32) :
    (s.completeCapture c tick hc).holding = s.holding := by
  simp only [State.completeCapture]
  split
  · exact State.armStore_holding _ _ _
  · rfl

theorem State.partFull_holding (s : State) (c : Capture) (tick hc : W32) : (s.partFull c tick hc).holding = s.holding := by
  have slot := s.takeSlot_holding c.slots tick hc
  unfold State.partFull
  split
  · split <;> (rename_i ht; rw [ht] at slot)
    · exact slot
    · exact (State.completeCapture_holding _ _ _ _).trans slot
  · exact s.completeCapture_holding c tick hc

theorem State.captureFrame_holding (s : State) (f : StampedFrame) : (s.captureFrame f).holding = s.holding := by
  unfold State.captureFrame
  split
  · rfl
  · simp only []
    split
    · exact s.partFull_holding _ _ _
    · rfl
  · rfl
  · rfl

theorem State.takeTrigger_holding (s : State) (source : TrigSource) (tick hc : W32) :
    (s.takeTrigger source tick hc).holding = s.holding := by
  unfold State.takeTrigger
  split <;> rfl

theorem State.drawTrigger_holding {s t : State} {g : WaitingTrigger} {rest : List CapEvent} (h : s.drawTrigger = some (g, rest, t)) :
    t.holding = s.holding := by
  unfold State.drawTrigger at h
  split at h <;> cases h <;> rfl

theorem State.senseXtrig_holding (s : State) (high : Bool) : (s.senseXtrig high).holding = s.holding := by
  simp only [State.senseXtrig]
  split
  · rfl
  · split <;> rfl

theorem State.takeS2_holding (s : State) (new : CapCfg) : (s.takeS2 new).holding = s.holding := by
  simp only [State.takeS2]
  split
  · split <;> rfl
  · split
    · split
      · exact State.armStore_holding _ _ _
      · rfl
    · split
      · rfl
      · exact State.retryStarved_holding _

theorem State.dropFromCaptures_holding (s : State) (p : Port) : (s.dropFromCaptures p).holding = s.holding :=
  State.retryStarved_holding _

/-! ### The Energy Block -/

theorem State.feedEngine_holding (s : State) (e : PulseId) (quanta : Nat) : (s.feedEngine e quanta).holding = s.holding := by
  have drawn : ∀ (t : State) (b : Bool), (if b then { t with draws := t.draws + 1 } else t).holding = t.holding := fun t b =>
    ite_holding rfl
  have lost : ∀ (t : State) (n : Nat), (if n = 0 then t else t.latchPulseLost).holding = t.holding := by
    intro t n
    split
    · rfl
    · exact t.latchHosts_holding _ _
  exact (lost _ _).trans (drawn _ _)

theorem State.feedBound_holding (s : State) (a : AccId) (quanta : Nat) : (s.feedBound a quanta).holding = s.holding :=
  foldl_holding (fun s e => ite_holding (s.feedEngine_holding e quanta)) _ s

theorem State.countHalfCycle_holding (s : State) (a : AccId) (x : Summary) : (s.countHalfCycle a x).holding = s.holding := by
  simp only [State.countHalfCycle]
  split
  · rfl
  · exact State.feedBound_holding _ _ _

theorem State.workAccumulator_holding (close : HandedClose) (s : State) (a : AccId) :
    (s.workAccumulator close a).holding = s.holding := by
  simp only [State.workAccumulator]
  split
  · rfl
  · split
    · exact State.countHalfCycle_holding _ _ _
    · split
      · exact State.countHalfCycle_holding _ _ _
      · rfl
  · split
    · rfl
    · exact State.countHalfCycle_holding _ _ _

theorem State.completeSnapshot_holding (s : State) (close : HandedClose) : (s.completeSnapshot close).holding = s.holding := by
  unfold State.completeSnapshot
  split
  · rfl
  · exact State.latchHosts_holding _ _ _

theorem State.takeEnergyClose_holding (s : State) (close : HandedClose) : (s.takeEnergyClose close).holding = s.holding :=
  (State.completeSnapshot_holding _ close).trans (foldl_holding (State.workAccumulator_holding close) _ s)

theorem State.takeS3_holding (s : State) (new : EnergyCfg) : (s.takeS3 new).holding = s.holding :=
  foldl_holding (fun t _ => ite_holding (State.onSessions_holding (t.setAcc _ _) _)) allAccumulators s

theorem State.dropFromSnapshot_holding (s : State) (p : Port) : (s.dropFromSnapshot p).holding = s.holding := by
  unfold State.dropFromSnapshot
  split <;> rfl

/-! ### Configuration and ports -/

theorem State.scrub_holding (s : State) : s.scrub.holding = s.holding := by
  simp only [State.scrub]
  split <;> rfl

theorem State.handCommitted_holding (s : State) (old new : Table) : (s.handCommitted old new).holding = s.holding := by
  simp only [State.handCommitted]
  split <;> rfl

theorem State.refuseFrame_holding (s : State) (p : Port) (tag : Byte) (st : Status) :
    (s.refuseFrame p tag st).holding = s.holding :=
  (State.answer_holding _ p _).trans (ite_holding (s.onCounters_holding p _))

theorem State.leadSeen_holding (s : State) (span : Nat) : (s.leadSeen span).holding = s.holding := by
  simp only [State.leadSeen]
  split
  · split <;> rfl
  · split
    · rfl
    · split <;> rfl
  · rfl

theorem State.huntByte_holding (s : State) (b : Byte) : (s.huntByte b).holding = s.holding := by
  unfold State.huntByte
  split <;> rfl

/-! ### The lease passing on (R136, R137) -/

/-- The lease goes to the first waiter, or is FREE. -/
def Holding.passed (h : Holding) : Holding :=
  match h.queue with
  | [] => { h with holder := none }
  | w :: rest => { h with holder := some w.host, queue := rest }

/-- An ending session at the lease and its queue. -/
def Holding.forfeited (h : Holding) (p : Port) : Holding :=
  if h.holder = some p then h.passed else { h with queue := h.queue.filter fun w => w.host != p }

/-- A port's session and its HOLD token gone. -/
def Holding.closed (h : Holding) (p : Port) : Holding :=
  { h with token := if h.token = some p then none else h.token, isOpen := h.isOpen.set p false }

theorem State.passLease_holding (s : State) : s.passLease.holding = s.holding.passed := by
  rcases s.passLease_cases with ⟨hq, h⟩ | ⟨w, rest, hq, h⟩ <;> rw [h] <;> simp only [Holding.passed, State.holding, hq]
  · rfl
  · exact State.latch_holding _ _ _

theorem State.endTenure_holding (s : State) (event : LeaseEventKind) (holder : Port) :
    (s.endTenure event holder).holding = s.holding.passed := State.passLease_holding _

theorem State.holdsLease_iff (s : State) (p : Port) : s.holdsLease p = true ↔ s.holding.holder = some p := by
  cases hl : s.lease <;> simp [State.holdsLease, State.holding, hl]

theorem State.forfeitLease_holding (s : State) (p : Port) : (s.forfeitLease p).holding = s.holding.forfeited p := by
  rcases s.forfeitLease_cases p with ⟨hp, h⟩ | ⟨hp, h⟩ <;> rw [h, Holding.forfeited]
  · rw [if_pos ((s.holdsLease_iff p).mp hp), State.endTenure_holding]
  · rw [if_neg fun hh => by rw [(s.holdsLease_iff p).mpr hh] at hp; cases hp]
    rfl

theorem State.discardSession_holding (s : State) (p : Port) : (s.discardSession p).holding = s.holding.closed p := by
  have hopen : (s.discardSession p).holding.isOpen = (s.holding.closed p).isOpen := PerPort.ext_get fun q => by
    rw [State.holding_isOpen, State.discardSession_session, Holding.closed, PerPort.get_set, State.holding_isOpen]
    split <;> rfl
  rw [State.discardSession_eq] at hopen ⊢
  simp only [State.holding, Holding.closed] at hopen ⊢
  rw [hopen]
  rfl

/-- The blocks tear down in any order (R173, log 10): the lease and its queue are forfeited. -/
theorem State.tearDownBlocks_holding (s : State) (p : Port) : (s.tearDownBlocks p).holding = s.holding.forfeited p := by
  let t : State := { s with draws := s.draws + 1 }
  have dropThenForfeit : ((t.dropFromCaptures p).forfeitLease p).holding = s.holding.forfeited p := by
    rw [State.forfeitLease_holding, State.dropFromCaptures_holding]
    rfl
  simp only [State.tearDownBlocks]
  split
  · exact (State.dropFromCaptures_holding _ p).trans (t.forfeitLease_holding p)
  · split
    · exact dropThenForfeit
    · split
      · rename_i hp
        rw [State.passLease_holding, State.dropFromCaptures_holding, Holding.forfeited,
          if_pos ((s.holdsLease_iff p).mp hp)]
        rfl
      · exact dropThenForfeit

theorem State.endSession_holding (s : State) (p : Port) (event : SessionEventKind) :
    (s.endSession p event).1.holding = (s.holding.closed p).forfeited p := by
  rw [State.endSession, State.appendNow_holding, State.dropFromSnapshot_holding, State.tearDownBlocks_holding,
    State.discardSession_holding]

/-! ### The law kept -/

/-- A lease passed to a waiter that has a session. -/
theorem Holding.passed_law {h : Holding} (token : ∀ p, h.token = some p → h.isOpen.get p = true)
    (distinct : (h.queue.map Waiter.host).Nodup) (two : h.queue.length ≤ 2)
    (waiters : ∀ w ∈ h.queue, h.isOpen.get w.host = true) : h.passed.Law := by
  unfold Holding.passed
  split
  · rename_i hq
    exact ⟨token, fun p hp => (by cases hp), fun _ => hq, distinct, two, waiters⟩
  · rename_i w rest hq
    rw [hq, List.map_cons, List.nodup_cons] at distinct
    rw [hq, List.length_cons] at two
    rw [hq] at waiters
    refine ⟨token, fun p hp => ?_, fun hn => (by cases hn), distinct.2, by show rest.length ≤ 2; omega,
      fun v hv => waiters v (List.mem_cons_of_mem _ hv)⟩
    cases hp
    exact ⟨waiters w List.mem_cons_self, distinct.1⟩

theorem Holding.Law.passed {h : Holding} (l : h.Law) : h.passed.Law := passed_law l.token l.distinct l.two l.waiters

/-- A waiter left the queue. -/
theorem Holding.Law.unqueued {h : Holding} (l : h.Law) (p : Port) :
    Holding.Law { h with queue := h.queue.filter fun w => w.host != p } := by
  have sub : (h.queue.filter fun w => w.host != p).Sublist h.queue := List.filter_sublist
  exact ⟨l.token, fun q hq => ⟨(l.holder q hq).1, fun hm => (l.holder q hq).2 ((sub.map _).subset hm)⟩,
    fun hn => by rw [show h.queue = [] from l.free hn]; rfl, l.distinct.sublist (sub.map _), sub.length_le.trans l.two,
    fun w hw => l.waiters w (sub.subset hw)⟩

/-- A session ended: with its token, its tenure or its place in the queue. -/
theorem Holding.Law.ended {h : Holding} (l : h.Law) (p : Port) : ((h.closed p).forfeited p).Law := by
  have others : ∀ q, q ≠ p → (h.closed p).isOpen.get q = h.isOpen.get q := fun q hq => PerPort.get_set_ne _ _ hq
  have token : ∀ q, (h.closed p).token = some q → (h.closed p).isOpen.get q = true := by
    intro q hq
    simp only [Holding.closed] at hq
    split at hq
    · cases hq
    · rename_i hne
      have hqp : q ≠ p := fun e => hne (e ▸ hq)
      rw [others q hqp]
      exact l.token q hq
  by_cases hp : h.holder = some p
  · rw [Holding.forfeited, if_pos (show (h.closed p).holder = some p from hp)]
    refine Holding.passed_law token l.distinct l.two fun w hw => ?_
    have hne : w.host ≠ p := fun e => (l.holder p hp).2 (List.mem_map.mpr ⟨w, hw, e⟩)
    rw [others _ hne]
    exact l.waiters w hw
  · rw [Holding.forfeited, if_neg (show ¬ (h.closed p).holder = some p from hp)]
    obtain ⟨-, holder, free, distinct, two, waiters⟩ := l.unqueued p
    refine ⟨token, fun q hq => ⟨?_, (holder q hq).2⟩, free, distinct, two, fun w hw => ?_⟩
    · have hne : q ≠ p := fun e => hp (e ▸ hq)
      rw [others q hne]
      exact (holder q hq).1
    · have hne : w.host ≠ p := by simpa using (List.mem_filter.mp hw).2
      rw [others _ hne]
      exact waiters w hw

/-- A session opened, with the token or without. -/
theorem State.opened_law {s : State} (l : s.holding.Law) (p : Port) (x : Session) (hold : Bool) : (s.opened p x hold).holding.Law := by
  have grows : ∀ q, s.holding.isOpen.get q = true → (s.opened p x hold).holding.isOpen.get q = true := by
    intro q hq
    rw [State.holding_isOpen] at hq ⊢
    rw [State.opened_session]
    split
    · rfl
    · exact hq
  have here : (s.opened p x hold).holding.isOpen.get p = true := by
    rw [State.holding_isOpen, State.opened_session, if_pos rfl]
    rfl
  have token : ∀ q, (s.opened p x hold).holding.token = some q → (s.opened p x hold).holding.isOpen.get q = true := by
    intro q hq
    cases hold with
    | false => exact grows q (l.token q hq)
    | true => cases hq; exact here
  obtain ⟨-, holder, free, distinct, two, waiters⟩ := l
  cases hold <;>
    exact ⟨token, fun q hq => ⟨grows q (holder q hq).1, (holder q hq).2⟩, free, distinct, two, fun w hw => grows _ (waiters w hw)⟩

/-- The token freed, or taken by an open session. -/
theorem Holding.Law.withToken {h : Holding} (l : h.Law) {token : Option Port} (ht : ∀ p, token = some p → h.isOpen.get p = true) :
    Holding.Law { h with token := token } := ⟨ht, l.holder, l.free, l.distinct, l.two, l.waiters⟩

theorem placeIn_eq_zero_iff (p : Port) : ∀ q : List Waiter, placeIn p q = 0 ↔ p ∉ q.map Waiter.host
  | [] => by simp [placeIn]
  | w :: rest => by
    have ih := placeIn_eq_zero_iff p rest
    rw [placeIn, List.map_cons, List.mem_cons, not_or, ← ih]
    by_cases hw : w.host = p
    · simp [hw]
    · rw [if_neg hw]
      cases placeIn p rest <;> simp [Ne.symm hw]

/-- Distinct ports are at most three. -/
theorem length_le_of_nodup {l : List Port} (h : l.Nodup) : l.length ≤ 3 :=
  (h.subperm (l₂ := allPorts) fun p _ => by cases p <;> decide).length_le

/-- A session that neither holds the lease nor waits joins the queue. -/
theorem Holding.Law.queued {h : Holding} (l : h.Law) {p q : Port} (hq : h.holder = some q) (hne : q ≠ p) (hp : h.isOpen.get p = true)
    (hnot : p ∉ h.queue.map Waiter.host) (seconds : Nat) :
    Holding.Law { h with queue := h.queue ++ [{ host := p, seconds := seconds }] } := by
  have hosts : (h.queue ++ [({ host := p, seconds := seconds } : Waiter)]).map Waiter.host = h.queue.map Waiter.host ++ [p] :=
    List.map_append
  have distinct : (h.queue.map Waiter.host ++ [p]).Nodup := List.nodup_append.mpr
    ⟨l.distinct, List.nodup_singleton p, fun q hq r hr e => by rw [List.mem_singleton.mp hr] at e; exact hnot (e ▸ hq)⟩
  have apart : q ∉ h.queue.map Waiter.host ++ [p] := fun hm =>
    (List.mem_append.mp hm).elim (l.holder q hq).2 fun hm => hne (List.mem_singleton.mp hm)
  refine ⟨l.token, fun r hr => ⟨(l.holder r hr).1, ?_⟩, fun hn => ?_, hosts ▸ distinct, ?_, fun w hw => ?_⟩
  · cases hq.symm.trans hr
    exact hosts ▸ apart
  · cases hq.symm.trans hn
  · have three := length_le_of_nodup (List.nodup_cons.mpr ⟨apart, distinct⟩)
    simp only [List.length_cons, List.length_append, List.length_map, List.length_nil] at three ⊢
    omega
  · rcases List.mem_append.mp hw with hw | hw
    · exact l.waiters w hw
    · rw [List.mem_singleton.mp hw]; exact hp

theorem State.takeLease_law {s : State} (l : s.holding.Law) {p : Port} (hp : (s.session p).isSome = true) (seconds : Nat)
    (wait : Bool) : (s.takeLease p seconds wait).1.holding.Law := by
  have here : s.holding.isOpen.get p = true := by rw [State.holding_isOpen]; exact hp
  unfold State.takeLease
  split
  · rename_i hl
    have hq : s.holding.queue = [] := l.free (congrArg (Option.map Tenure.holder) hl)
    refine ⟨l.token, fun q hq' => ?_, fun hn => (by cases hn), l.distinct, l.two, l.waiters⟩
    cases hq'
    have hnot : p ∉ s.holding.queue.map Waiter.host := by rw [hq]; exact List.not_mem_nil
    exact ⟨here, hnot⟩
  · rename_i t hl
    have held : s.holding.holder = some t.holder := congrArg (Option.map Tenure.holder) hl
    split
    · exact ⟨l.token, fun q hq => l.holder q (held.trans hq), fun hn => (by cases hn), l.distinct, l.two, l.waiters⟩
    · rename_i hne
      split
      · exact l
      · by_cases hplace : placeIn p s.queue = 0
        · simp only [hplace, if_true]
          exact l.queued held hne here ((placeIn_eq_zero_iff p s.queue).mp hplace) seconds
        · simp only [hplace, if_false]
          exact l

/-! ### Requests -/

theorem State.withSession_holding {s : State} {p : Port} {f : Session → State × Reply}
    (h : ∀ x, s.session p = some x → (f x).1.holding = s.holding) : (s.withSession p f).1.holding = s.holding := by
  unfold State.withSession
  split
  · rfl
  · exact h _ ‹_›

theorem State.withLease_holding {s : State} {p : Port} {f : Tenure → State × Reply}
    (h : ∀ t, s.lease = some t → (f t).1.holding = s.holding) : (s.withLease p f).1.holding = s.holding := by
  unfold State.withLease
  split
  · rfl
  · split
    · exact h _ ‹_›
    · rfl

theorem State.setStage_holding {s : State} {t : Tenure} (h : s.lease = some t) (stage : Table) :
    (s.setStage t stage).holding = s.holding := by
  simp only [State.holding, State.setStage, h, Option.map_some]

theorem reqPortStatus_holding (p : Port) (clear : Byte) (s : State) : (reqPortStatus p clear s).1.holding = s.holding := by
  unfold reqPortStatus
  split
  · rfl
  · exact ite_holding (s.clearCounters_holding p)

theorem reqSetAttention_holding (p : Port) (mask watermark : Byte) (s : State) :
    (reqSetAttention p mask watermark s).1.holding = s.holding :=
  State.withSession_holding fun x hx => by
    split
    · rfl
    · exact State.setSession_holding hx _

theorem reqReadEntries_holding (p : Port) (b : Byte) (s : State) : (reqReadEntries p b s).1.holding = s.holding :=
  State.withSession_holding fun x hx => by
    split
    · rfl
    · exact State.setSession_holding hx _

theorem reqAckEntries_holding (p : Port) (seq : W32) (s : State) : (reqAckEntries p seq s).1.holding = s.holding :=
  State.withSession_holding fun x hx => by
    simp only []
    split
    · rfl
    · split
      · rfl
      · split
        · rfl
        · exact State.setSession_holding hx _

theorem reqAppendNote_holding (p : Port) (data : List Byte) (s : State) : (reqAppendNote p data s).1.holding = s.holding := by
  have k := s.appendNow_holding (.note p data)
  unfold reqAppendNote
  split <;> (rename_i h; rw [h] at k; exact k)

theorem reqReleaseCapture_holding (p : Port) (id : W16) (s : State) : (reqReleaseCapture p id s).1.holding = s.holding := by
  unfold reqReleaseCapture
  split
  · rfl
  · split
    · rfl
    · split
      · rfl
      · simp only []
        split
        · exact State.retryStarved_holding _
        · rfl

theorem reqMarkBaseline_holding (p : Port) (mask : Byte) (s : State) : (reqMarkBaseline p mask s).1.holding = s.holding :=
  State.withSession_holding fun x hx => by
    split
    · rfl
    · exact State.setSession_holding hx _

theorem reqSnapshot_holding (p : Port) (s : State) : (reqSnapshot p s).1.holding = s.holding := by
  unfold reqSnapshot
  split <;> rfl

theorem reqStageWrite_holding (p : Port) (sec record field : Byte) (value : W16) (s : State) :
    (reqStageWrite p sec record field value s).1.holding = s.holding :=
  State.withLease_holding fun t ht => by
    split
    · rfl
    · split
      · exact State.setStage_holding ht _
      · rfl

theorem reqStageRead_holding (p : Port) (sec record field : Byte) (s : State) :
    (reqStageRead p sec record field s).1.holding = s.holding :=
  State.withLease_holding fun t _ => by split <;> rfl

theorem reqCommit_holding (p : Port) (s : State) : (reqCommit p s).1.holding = s.holding :=
  State.withLease_holding fun t _ => by
    split
    · rfl
    · exact (State.handCommitted_holding _ _ _).trans (State.appendNow_holding (s.installTable t.stage) _)

theorem reqClearTally_holding (p : Port) (mask : Byte) (s : State) : (reqClearTally p mask s).1.holding = s.holding :=
  State.withLease_holding fun t _ => by
    split
    · rfl
    · exact State.appendNow_holding _ _

theorem reqRestart_holding (p : Port) (generation : W16) (s : State) : (reqRestart p generation s).1.holding = s.holding :=
  State.withLease_holding fun t _ => by split <;> rfl

theorem reqDefineReadSet_holding (p : Port) (codes : List Byte) (s : State) :
    (reqDefineReadSet p codes s).1.holding = s.holding :=
  State.withSession_holding fun x hx => by
    split
    · rfl
    · split
      · rfl
      · exact State.setSession_holding hx _

theorem reqOpenSession_law {s : State} (l : s.holding.Law) (p : Port) (deadline : Option W32) (start retention : Byte) :
    (reqOpenSession p deadline start retention s).1.holding.Law := by
  have settled : s.settle.holding.Law := by rw [State.settle_holding]; exact l
  unfold reqOpenSession
  split
  · exact l
  · split
    · exact l
    · split
      · exact l
      · rw [State.openSession_eq, State.appendNow_holding]
        exact State.opened_law settled _ _ _

theorem reqCloseSession_law {s : State} (l : s.holding.Law) (p : Port) : (reqCloseSession p s).1.holding.Law := by
  unfold reqCloseSession State.withSession
  split
  · exact l
  · show (s.endSession p .closed).1.holding.Law
    rw [State.endSession_holding]
    exact l.ended p

theorem reqSetRetention_law {s : State} (l : s.holding.Law) (p : Port) (retention : Byte) :
    (reqSetRetention p retention s).1.holding.Law := by
  unfold reqSetRetention State.withSession
  split
  · exact l
  · rename_i x hx
    have here : s.holding.isOpen.get p = true := by rw [State.holding_isOpen, hx]; rfl
    split
    · exact l
    · split
      · split
        · exact l
        · exact l.withToken fun q hq => by cases hq; exact here
      · split
        · exact l.withToken fun q hq => by cases hq
        · exact l

theorem reqLeaseTake_law {s : State} (l : s.holding.Law) {p : Port} (hp : (s.session p).isSome = true) (seconds wait : Byte) :
    (reqLeaseTake p seconds wait s).1.holding.Law := by
  have seen : (s.seenGrant p).holding = s.holding := s.latch_holding p _
  have l' : (s.seenGrant p).holding.Law := seen ▸ l
  simp only [reqLeaseTake]
  split
  · exact l'
  · exact State.takeLease_law l' (by rw [← State.holding_isOpen, seen, State.holding_isOpen]; exact hp) _ _

theorem reqLeaseRelease_law {s : State} (l : s.holding.Law) (p : Port) : (reqLeaseRelease p s).1.holding.Law := by
  have l' : (s.seenGrant p).holding.Law := (s.latch_holding p _) ▸ l
  simp only [reqLeaseRelease]
  split
  · rw [State.endTenure_holding]
    exact l'.passed
  · split
    · exact l'
    · exact l'.unqueued p

/-- Every request keeps the two laws, LEASE_TAKE that of an open session. -/
theorem State.perform_law {s : State} (l : s.holding.Law) {p : Port} (deadline : Option W32) {r : Request}
    (hs : (reqCodeOf r).needsSession = true → (s.session p).isSome = true) : (s.perform p deadline r).1.holding.Law := by
  have same : ∀ {t : State}, t.holding = s.holding → t.holding.Law := fun h => h ▸ l
  cases r with
  | openSession start retention => exact reqOpenSession_law l p deadline start retention
  | closeSession => exact reqCloseSession_law l p
  | portStatus clear => exact same (reqPortStatus_holding p clear s)
  | setAttention mask watermark => exact same (reqSetAttention_holding p mask watermark s)
  | attentionStatus => exact same (State.withSession_holding fun _ hx => State.setSession_holding hx _)
  | setSubscription mask => exact same (State.withSession_holding fun _ hx => State.setSession_holding hx _)
  | setRetention retention => exact reqSetRetention_law l p retention
  | readEntries countAndAck => exact same (reqReadEntries_holding p countAndAck s)
  | ackEntries seq => exact same (reqAckEntries_holding p seq s)
  | rewind => exact same (State.withSession_holding fun _ hx => State.setSession_holding hx _)
  | journalStatus => exact same (State.withSession_holding fun _ _ => rfl)
  | appendNote data => exact same (reqAppendNote_holding p data s)
  | captureNow => exact same (s.takeTrigger_holding _ _ _)
  | captureList => exact l
  | readFrames id part offset count => exact same (congrArg State.holding (reqReadFrames_state id part offset count s))
  | releaseCapture id => exact same (reqReleaseCapture_holding p id s)
  | storeStatus id => exact same (congrArg State.holding (reqStoreStatus_state id s))
  | readEnergy => exact same (State.withSession_holding fun _ _ => rfl)
  | markBaseline mask => exact same (reqMarkBaseline_holding p mask s)
  | snapshot => exact same (reqSnapshot_holding p s)
  | readSnapshot => exact same (s.latch_holding p _)
  | pulseStatus => exact same (s.latch_holding p _)
  | leaseTake seconds wait => exact reqLeaseTake_law l (hs rfl) seconds wait
  | leaseRelease => exact reqLeaseRelease_law l p
  | leaseStatus => exact same (s.latch_holding p _)
  | stageWrite sec record field value => exact same (reqStageWrite_holding p sec record field value s)
  | stageRead sec record field => exact same (reqStageRead_holding p sec record field s)
  | configRead sec record field => exact same (congrArg State.holding (reqConfigRead_state sec record field s))
  | commit => exact same (reqCommit_holding p s)
  | discard => exact same (State.withLease_holding fun _ ht => State.setStage_holding ht _)
  | clearTally mask => exact same (reqClearTally_holding p mask s)
  | restart generation => exact same (reqRestart_holding p generation s)
  | defineReadSet codes => exact same (reqDefineReadSet_holding p codes s)
  | readSet => exact same (State.withSession_holding fun _ _ => rfl)
  | detectorStatus => exact l

/-! ### Frames and bytes -/

/-- What the codes that need no session read needs none. -/
theorem ReqCode.read_needsSession {c : ReqCode} (hc : c.needsSession = false) {payload : List Byte} {r : Request}
    (h : c.read payload = some r) : (reqCodeOf r).needsSession = false := by
  cases c with
  | openSession =>
    match payload, h with
    | [_, _], h => cases h; rfl
  | portStatus =>
    match payload, h with
    | [_], h => cases h; rfl
  | _ => cases hc

/-- A request that passes the general checks finds its session open, if it needs one (R175, check 5). -/
theorem State.session_of_passes {s : State} {p : Port} {f : RequestFrame} {r : Request} (h : s.judge p f = .passes r)
    (hr : (reqCodeOf r).needsSession = true) : (s.session p).isSome = true := by
  unfold State.judge at h
  split at h
  · cases h
  · split at h
    · cases h
    · split at h
      · cases h
      · rename_i c _
        split at h
        · cases h
        · split at h
          · cases h
          · rename_i hopen
            split at h
            · cases h
            · rename_i hread
              cases h
              have hneeds : c.needsSession = true := by
                rw [← Bool.not_eq_false]
                exact fun hc => by rw [ReqCode.read_needsSession hc hread] at hr; cases hr
              rw [hneeds, Bool.true_and, Bool.not_eq_true, ← Option.not_isSome, Bool.not_eq_false'] at hopen
              exact hopen

theorem State.takeRequestFrame_law {s : State} (l : s.holding.Law) (p : Port) (deadline : Option W32) (f : RequestFrame) :
    (s.takeRequestFrame p deadline f).holding.Law := by
  rcases s.takeRequestFrame_cases p deadline f with ⟨st, -, h⟩ | ⟨r, hj, h⟩ <;> rw [h]
  · rw [State.refuseFrame_holding]; exact l
  · rw [State.serve, State.answer_holding]
    exact State.perform_law l deadline (State.session_of_passes hj)

theorem State.arriveOnC_law {s : State} (l : s.holding.Law) (deadline : Option W32) (f : RequestFrame) :
    (s.arriveOnC deadline f).holding.Law := by
  unfold State.arriveOnC
  split
  · exact State.takeRequestFrame_law l .c deadline f
  · split <;> exact l

theorem State.arrive_law {s : State} (l : s.holding.Law) (p : Port) (f : RequestFrame) : (s.arrive p f).holding.Law := by
  have l' : (s.restartIdle p).holding.Law := (s.onSession_holding p _) ▸ l
  cases p with
  | a => exact State.takeRequestFrame_law l' _ _ _
  | b => exact State.takeRequestFrame_law l' _ _ _
  | c => exact State.arriveOnC_law l' _ _

theorem State.syncByte_law {s : State} (l : s.holding.Law) (p : SyncId) (b : Byte) : (s.syncByte p b).holding.Law := by
  simp only [State.syncByte]
  split
  · exact l
  · exact l
  · exact State.arrive_law (s := s.onLink p SyncLink.ignoreRest) l _ _

theorem State.frameByte_law {s : State} (l : s.holding.Law) (b : Byte) : (s.frameByte b).holding.Law := by
  simp only [State.frameByte]
  split
  · exact l
  · exact l
  · exact State.arrive_law (s := s.onPortC AsyncLink.hunt) l _ _

theorem State.receiveByte_law {s : State} (l : s.holding.Law) (b : Byte) (stopHigh : Bool) :
    (s.receiveByte b stopHigh).holding.Law := by
  unfold State.receiveByte
  split
  · exact l
  · split
    · rw [State.huntByte_holding]; exact l
    · exact l
  · split
    · exact State.frameByte_law l b
    · exact l

theorem State.restartNow_law (s : State) : s.restartNow.holding.Law :=
  ⟨fun _ h => (by cases h), fun _ h => (by cases h), fun _ => rfl, List.nodup_nil, Nat.zero_le _, fun _ h => (by cases h)⟩

theorem State.fetchOne_law {s : State} (l : s.holding.Law) (p : SyncId) : (s.fetchOne p).holding.Law := by
  simp only [State.fetchOne]
  split
  · exact l
  · split
    · split
      · exact s.restartNow_law
      · exact l
    · exact l

theorem State.responseDelivered_law {s : State} (l : s.holding.Law) (r : Response) : (s.responseDelivered r).holding.Law := by
  unfold State.responseDelivered
  split
  · exact s.restartNow_law
  · split
    · exact l
    · exact State.takeRequestFrame_law (s := s.onPortC fun k => { k with sending := none, held := none }) l _ _ _

/-! ### Commands -/

theorem State.whenRunning_law {s t : State} {f : State → State} (h : s.whenRunning f = .next t) (l : s.holding.Law)
    (k : (f s).holding.Law) : t.holding.Law := by
  rcases s.whenRunning_cases f with ⟨-, e⟩ | ⟨-, e⟩ <;> (rw [e] at h; cases h)
  · exact k
  · exact l

theorem State.IsReset.holding_law {t : State} (h : t.IsReset) : t.holding.Law := by
  obtain ⟨_, _, _, _, _, _, _, _, rfl⟩ := h
  exact ⟨fun _ h => (by cases h), fun _ h => (by cases h), fun _ => rfl, List.nodup_nil, Nat.zero_le _, fun _ h => (by cases h)⟩

section
variable {s t : State} (l : s.holding.Law)
include l

/-- Work that leaves what the laws read. -/
theorem State.whenRunning_same {f : State → State} (h : s.whenRunning f = .next t) (k : (f s).holding = s.holding) :
    t.holding.Law := State.whenRunning_law h l (k ▸ l)

theorem execPinReset_law (h : execPinReset s = .next t) : t.holding.Law := by
  simp only [execPinReset] at h
  split at h <;> cases h
  · exact l
  · exact (s.restarted_isReset _ _).holding_law

theorem execFrameTaken_law {u ia ib : W16} (h : execFrameTaken u ia ib s = .next t) : t.holding.Law :=
  State.whenRunning_same l h (s.takeFrame_holding _)

theorem execDetectorClose_law (h : execDetectorClose s = .next t) : t.holding.Law := by
  refine State.whenRunning_same l h ?_
  split
  · rfl
  · exact State.takeDetectorClose_holding _ _

theorem execEnergyClose_law (h : execEnergyClose s = .next t) : t.holding.Law := by
  refine State.whenRunning_same l h ?_
  split
  · rfl
  · exact State.takeEnergyClose_holding _ _

theorem execPulseHighEnd_law {e : PulseId} (h : execPulseHighEnd e s = .next t) : t.holding.Law := by
  refine State.whenRunning_same l h ?_
  simp only []
  split
  · split <;> rfl
  · rfl

theorem execPulseGapEnd_law {e : PulseId} (h : execPulseGapEnd e s = .next t) : t.holding.Law := by
  refine State.whenRunning_same l h ?_
  simp only []
  split
  · split <;> rfl
  · rfl

theorem execEnergyConfig_law (h : execEnergyConfig s = .next t) : t.holding.Law := by
  refine State.whenRunning_same l h ?_
  split
  · exact State.takeS3_holding _ _
  · rfl

theorem execEnergyFault_law (h : execEnergyFault s = .next t) : t.holding.Law := by
  refine State.whenRunning_same l h ?_
  split <;> rfl

theorem execCaptureFrame_law (h : execCaptureFrame s = .next t) : t.holding.Law := by
  refine State.whenRunning_same l h ?_
  split
  · rfl
  · exact State.captureFrame_holding _ _

theorem execCaptureTrigger_law (h : execCaptureTrigger s = .next t) : t.holding.Law := by
  refine State.whenRunning_same l h ?_
  split
  · rfl
  · rename_i hd
    have drawn := State.drawTrigger_holding hd
    exact (State.takeTrigger_holding _ _ _ _).trans drawn

theorem execXtrigInEdge_law {high : Bool} (h : execXtrigInEdge high s = .next t) : t.holding.Law :=
  State.whenRunning_same (s := { s with pins := { s.pins with xtrigInHigh := high } }) l h (State.senseXtrig_holding _ high)

theorem execXtrigOutPulseEnd_law (h : execXtrigOutPulseEnd s = .next t) : t.holding.Law := by
  refine State.whenRunning_same l h ?_
  split
  · rfl
  · split <;> rfl

theorem execCaptureConfig_law (h : execCaptureConfig s = .next t) : t.holding.Law := by
  refine State.whenRunning_same l h ?_
  split
  · rfl
  · exact State.takeS2_holding _ _

theorem execCaptureTokenFree_law (h : execCaptureTokenFree s = .next t) : t.holding.Law := by
  refine State.whenRunning_same l h ?_
  split
  · rfl
  · exact State.retryStarved_holding _

theorem execJournalAppend_law {source : Source} (h : execJournalAppend source s = .next t) : t.holding.Law := by
  refine State.whenRunning_same l h ?_
  split
  · rfl
  · exact State.takeAppend_holding _ _ _ _

theorem execLeaseExpiry_law (h : execLeaseExpiry s = .next t) : t.holding.Law := by
  refine State.whenRunning_law h l ?_
  split
  · exact l
  · split
    · rw [State.endTenure_holding]; exact l.passed
    · exact l

theorem execIntegrityScrub_law (h : execIntegrityScrub s = .next t) : t.holding.Law :=
  State.whenRunning_same l h (ite_holding s.scrub_holding)

theorem execIdleExpiry_law {p : Port} (h : execIdleExpiry p s = .next t) : t.holding.Law := by
  refine State.whenRunning_law h l ?_
  split
  · rw [State.endSession_holding]; exact l.ended p
  · exact l

theorem execRestartTimeout_law (h : execRestartTimeout s = .next t) : t.holding.Law := by
  refine State.whenRunning_law h l ?_
  split
  · exact l
  · split
    · exact s.restartNow_law
    · exact l

theorem execSelectFall_law {p : SyncId} (h : execSelectFall p s = .next t) : t.holding.Law :=
  State.whenRunning_law (s := s.setSelect p true) h l (by split <;> exact l)

theorem execSelectRise_law {p : SyncId} (h : execSelectRise p s = .next t) : t.holding.Law :=
  State.whenRunning_law (s := s.setSelect p false) h l (by split <;> exact l)

theorem execFirstByte_law {p : SyncId} {b : Byte} (h : execFirstByte p b s = .next t) : t.holding.Law :=
  State.whenRunning_same l h (ite_holding rfl)

theorem execRequestByte_law {p : SyncId} {b : Byte} (h : execRequestByte p b s = .next t) : t.holding.Law := by
  refine State.whenRunning_law h l ?_
  split
  · exact State.syncByte_law l p b
  · exact l

theorem execFetchByte_law {p : SyncId} (h : execFetchByte p s = .next t) : t.holding.Law := by
  refine State.whenRunning_law h l ?_
  split
  · exact State.fetchOne_law l p
  · exact l

theorem execFrameGapTimeout_law {p : Port} (h : execFrameGapTimeout p s = .next t) : t.holding.Law := by
  refine State.whenRunning_same l h ?_
  cases p <;> exact ite_holding rfl

theorem execLeadPattern_law {i1 i2 i3 i4 : Nat} {next : Option Nat} (h : execLeadPattern i1 i2 i3 i4 next s = .next t) :
    t.holding.Law := State.whenRunning_same l h (ite_holding (s.leadSeen_holding _))

theorem execResponseSent_law (h : execResponseSent s = .next t) : t.holding.Law := by
  refine State.whenRunning_law h l ?_
  split
  · exact l
  · exact State.responseDelivered_law l _

theorem execLineBreak_law (h : execLineBreak s = .next t) : t.holding.Law := by
  refine State.whenRunning_law h l ?_
  have ended : ((s.endSession .c .portReset).1).holding.Law := by rw [State.endSession_holding]; exact l.ended .c
  show (if _ then _ else _ : State).holding.Law
  split
  · exact ended
  · exact l

theorem execPortCByte_law {b : Byte} {stopHigh : Bool} (h : execPortCByte b stopHigh s = .next t) : t.holding.Law :=
  State.whenRunning_law h l (State.receiveByte_law l b stopHigh)

theorem execBadFrame_law {p : Port} {tag code : Byte} {payload : List Byte} {check : Byte}
    (h : execBadFrame p tag code payload check s = .next t) : t.holding.Law := State.whenRunning_law h l (State.arrive_law l p _)

theorem execTickCount_law (h : execTickCount s = .next t) : t.holding.Law := State.whenRunning_law h l l

theorem execResetRelease_law (h : execResetRelease s = .next t) : t.holding.Law := by
  simp only [execResetRelease] at h
  split at h <;> cases h <;> exact l

/-- Every command keeps the laws of R26 and R132. -/
theorem exec_holdingLaw {c : Instr} (h : exec c s = .next t) : t.holding.Law := by
  cases hr : asRequest c with
  | some r =>
    obtain ⟨p, tag, r⟩ := r
    exact State.whenRunning_law (exec_request hr s ▸ h) l (State.arrive_law l p _)
  | none =>
    cases c with
    | powerOnReset => cases h; exact State.IsReset.holding_law ⟨_, _, _, _, _, _, _, _, rfl⟩
    | pinReset => exact execPinReset_law l h
    | frameTaken u ia ib => exact execFrameTaken_law l h
    | detectorClose => exact execDetectorClose_law l h
    | energyClose => exact execEnergyClose_law l h
    | pulseHighEnd e => exact execPulseHighEnd_law l h
    | pulseGapEnd e => exact execPulseGapEnd_law l h
    | energyConfig => exact execEnergyConfig_law l h
    | energyFault => exact execEnergyFault_law l h
    | captureFrame => exact execCaptureFrame_law l h
    | captureTrigger => exact execCaptureTrigger_law l h
    | xtrigInEdge high => exact execXtrigInEdge_law l h
    | xtrigOutPulseEnd => exact execXtrigOutPulseEnd_law l h
    | captureConfig => exact execCaptureConfig_law l h
    | captureTokenFree => exact execCaptureTokenFree_law l h
    | journalAppend source => exact execJournalAppend_law l h
    | leaseExpiry => exact execLeaseExpiry_law l h
    | leaseWarnStart => exact State.whenRunning_same (f := id) l h rfl
    | integrityScrub => exact execIntegrityScrub_law l h
    | idleExpiry p => exact execIdleExpiry_law l h
    | restartTimeout => exact execRestartTimeout_law l h
    | selectFall p => exact execSelectFall_law l h
    | selectRise p => exact execSelectRise_law l h
    | firstByte p b => exact execFirstByte_law l h
    | requestByte p b => exact execRequestByte_law l h
    | fetchByte p => exact execFetchByte_law l h
    | frameGapTimeout p => exact execFrameGapTimeout_law l h
    | leadPattern i1 i2 i3 i4 next => exact execLeadPattern_law l h
    | portCByte b stopHigh => exact execPortCByte_law l h
    | responseSent => exact execResponseSent_law l h
    | lineBreak => exact execLineBreak_law l h
    | badFrame p tag code payload check => exact execBadFrame_law l h
    | tickCount => exact execTickCount_law l h
    | resetRelease => exact execResetRelease_law l h
    | _ => cases hr

end

/-- Settles O20: every command keeps what the token and the lease rest on. -/
theorem sharedHoldersKept : Obligations.SharedHoldersKept := fun s t htoken hlease h =>
  t.holding_law_iff.mp (step_induction (P := fun s => s.holding.Law) (fun _ _ => id) (fun _ _ _ l k => exec_holdingLaw l k)
    (s.holding_law_iff.mpr ⟨htoken, hlease⟩) h)

end Sys2Proof.Machine
end

section
/-! SUPPORT. The end of a session (R173): what the teardown leaves in any case, what the append of its SESSION_EVENT does, and the commands that
end a session. -/

namespace Sys2Proof.Machine

/-! ### The outcome of an append that its event waits for (log 4) -/

/-- The entry stands at the newest end with its number, or is counted under its class (R10, R13). -/
def State.Appended (out : State × Option W32) (tick hc : W32) (body : EntryBody) : Prop :=
  (∃ seq, out.2 = some seq ∧ out.1.journal.entries.getLast? = some { seq := seq, tick := tick, hc := hc, body := body })
    ∨ (out.2 = none ∧ 1 ≤ out.1.journal.tally.counts.get body.cls)

theorem State.tryStore_last {s t : State} {tick hc seq : W32} {body : EntryBody} (h : s.tryStore tick hc body = (t, some seq)) :
    t.journal.entries.getLast? = some { seq := seq, tick := tick, hc := hc, body := body } := by
  rcases s.tryStore_cases tick hc body with ⟨-, e⟩ | ⟨_, _, -, -, -, e⟩ | ⟨_, _, -, -, -, e⟩ <;> (rw [e] at h; cases h)
  · exact List.getLast?_concat
  · exact List.getLast?_concat

theorem LossTally.count_pos (l : LossTally) (c : EntryClass) (tick : W32) : 1 ≤ (l.count c tick).counts.get c := by
  simp only [LossTally.count, PerClass.get_set, if_true]
  exact le_min (by decide) (Nat.succ_pos _)

theorem State.storeOrCount_appended (s : State) (tick hc : W32) (body : EntryBody) :
    State.Appended (s.storeOrCount tick hc body) tick hc body := by
  rcases s.storeOrCount_cases tick hc body with ⟨t, seq, h, h'⟩ | ⟨t, -, h'⟩ <;> rw [h']
  · exact .inl ⟨seq, rfl, State.tryStore_last h⟩
  · exact .inr ⟨rfl, t.journal.tally.count_pos _ _⟩

theorem State.takeAppend_appended (s : State) (tick hc : W32) (body : EntryBody) :
    State.Appended (s.takeAppend tick hc body) tick hc body := by
  rcases s.takeAppend_cases tick hc body with ⟨-, h⟩ | ⟨-, ⟨t, _, -, h⟩ | ⟨t, -, h⟩⟩ <;> rw [h]
  · exact s.storeOrCount_appended tick hc body
  · exact t.emptyTally.storeOrCount_appended tick hc body
  · exact .inr ⟨rfl, t.journal.tally.count_pos _ _⟩

theorem State.appendNow_appended (s : State) (body : EntryBody) : State.Appended (s.appendNow body) s.nowTick s.nowHc body :=
  s.settle.takeAppend_appended _ _ _

/-! ### What waits -/

theorem State.tryStore_waiting (s : State) (tick hc : W32) (body : EntryBody) :
    (s.tryStore tick hc body).1.journal.waiting = s.journal.waiting := by
  rcases s.tryStore_cases tick hc body with ⟨-, h⟩ | ⟨_, _, -, -, -, h⟩ | ⟨_, _, -, -, -, h⟩ <;>
    exact congrArg (fun out => out.1.journal.waiting) h

theorem State.storeOrCount_waiting (s : State) (tick hc : W32) (body : EntryBody) :
    (s.storeOrCount tick hc body).1.journal.waiting = s.journal.waiting := by
  have k := s.tryStore_waiting tick hc body
  rcases s.storeOrCount_cases tick hc body with ⟨_, _, h, h'⟩ | ⟨_, h, h'⟩ <;> (rw [h']; rw [h] at k; exact k)

theorem State.takeAppend_waiting (s : State) (tick hc : W32) (body : EntryBody) :
    (s.takeAppend tick hc body).1.journal.waiting = s.journal.waiting := by
  have gap := s.tryStore_waiting tick hc (.gap s.journal.tally.counts s.journal.tally.first s.journal.tally.last)
  rcases s.takeAppend_cases tick hc body with ⟨-, h⟩ | ⟨-, ⟨t, _, ht, h⟩ | ⟨t, ht, h⟩⟩ <;> rw [h]
  · exact s.storeOrCount_waiting tick hc body
  · rw [ht] at gap
    exact (t.emptyTally.storeOrCount_waiting tick hc body).trans gap
  · rw [ht] at gap
    exact gap

/-- An append that its event waits for leaves nothing waiting. -/
theorem State.appendNow_waiting (s : State) (body : EntryBody) : (s.appendNow body).1.journal.waiting = [] :=
  (s.settle.takeAppend_waiting _ _ _).trans
    (s.settle_induction (fun t => t.journal.waiting = []) rfl fun t tick hc body h => (t.takeAppend_waiting tick hc body).trans h)

/-- On a full journal whose oldest entry is held back, such an append stores nothing. -/
theorem State.appendNow_heldBack {s : State} {e : Entry} {es : List Entry} (he : s.journal.entries = e :: es)
    (full : s.journal.entries.length = journalCapacity) (hh : s.heldBack e = true) (body : EntryBody) :
    (s.appendNow body).2 = none ∧ (s.appendNow body).1.journal.entries = s.journal.entries
      ∧ (s.appendNow body).1.journal.nextSeq = s.journal.nextSeq := by
  obtain ⟨tally, hs⟩ := State.foldl_takeAppend_held s.journal.waiting { s with journal := { s.journal with waiting := [] } }
    (e := e) (es := es) he full (by rw [State.heldBack_iff] at hh ⊢; exact hh)
  have hsettle : s.settle = { s with journal := { s.journal with waiting := [], tally := tally } } := hs
  have hh' : s.settle.heldBack e = true := by
    rw [hsettle]
    rw [State.heldBack_iff] at hh ⊢
    exact hh
  rw [State.appendNow, State.takeAppend_held _ _ _ (e := e) (es := es) (by rw [hsettle]; exact he) (by rw [hsettle]; exact full) hh',
    hsettle]
  exact ⟨rfl, rfl, rfl⟩

/-! ### What appends do to a session (R18, R19) -/

/-- A session that the removal of entries may have moved and overrun, and nothing else. -/
def Session.Evicted (x y : Session) : Prop :=
  ∃ cursor ackPoint overrunCount overrun, y = { x with
    cursor := cursor, ackPoint := ackPoint, overrunCount := overrunCount, latches := { x.latches with overrun := overrun } }

theorem Session.Evicted.refl (x : Session) : x.Evicted x := ⟨_, _, _, _, rfl⟩

theorem Session.Evicted.trans {x y z : Session} (h : x.Evicted y) (k : y.Evicted z) : x.Evicted z := by
  obtain ⟨_, _, _, _, rfl⟩ := h
  obtain ⟨_, _, _, _, rfl⟩ := k
  exact ⟨_, _, _, _, rfl⟩

/-- Every session of the one state stands in the other, moved by evictions alone. -/
def State.EvictedTo (s t : State) : Prop := ∀ p x, s.session p = some x → ∃ y, t.session p = some y ∧ x.Evicted y

theorem State.EvictedTo.refl {s t : State} (h : t.sessions = s.sessions) : s.EvictedTo t := fun p x hx =>
  ⟨x, by rw [State.session, h]; exact hx, .refl x⟩

theorem State.EvictedTo.trans {s t u : State} (h : s.EvictedTo t) (k : t.EvictedTo u) : s.EvictedTo u := fun p x hx =>
  have ⟨y, hy, hxy⟩ := h p x hx
  have ⟨z, hz, hyz⟩ := k p y hy
  ⟨z, hz, hxy.trans hyz⟩

theorem State.tryStore_evictedTo (s : State) (tick hc : W32) (body : EntryBody) : s.EvictedTo (s.tryStore tick hc body).1 := by
  rcases s.tryStore_cases tick hc body with ⟨-, h⟩ | ⟨_, _, -, -, -, h⟩ | ⟨e, rest, -, -, -, h⟩ <;> rw [h]
  · exact .refl rfl
  · exact .refl rfl
  · exact fun p x hx => ⟨x.passRemoved s.journal.nextSeq e, by rw [State.evicted_session, hx]; rfl, _, _, _, _, rfl⟩

theorem State.storeOrCount_evictedTo (s : State) (tick hc : W32) (body : EntryBody) : s.EvictedTo (s.storeOrCount tick hc body).1 := by
  have k := s.tryStore_evictedTo tick hc body
  rcases s.storeOrCount_cases tick hc body with ⟨_, _, h, h'⟩ | ⟨_, h, h'⟩ <;> (rw [h']; rw [h] at k; exact k)

theorem State.takeAppend_evictedTo (s : State) (tick hc : W32) (body : EntryBody) : s.EvictedTo (s.takeAppend tick hc body).1 := by
  have gap := s.tryStore_evictedTo tick hc (.gap s.journal.tally.counts s.journal.tally.first s.journal.tally.last)
  rcases s.takeAppend_cases tick hc body with ⟨-, h⟩ | ⟨-, ⟨t, _, ht, h⟩ | ⟨t, ht, h⟩⟩ <;> rw [h]
  · exact s.storeOrCount_evictedTo tick hc body
  · rw [ht] at gap
    exact gap.trans (t.emptyTally.storeOrCount_evictedTo tick hc body)
  · rw [ht] at gap
    exact gap

theorem State.appendNow_evictedTo (s : State) (body : EntryBody) : s.EvictedTo (s.appendNow body).1 :=
  (s.settle_induction (fun t => s.EvictedTo t) (.refl rfl) fun t tick hc body h => h.trans (t.takeAppend_evictedTo tick hc body)).trans
    (s.settle.takeAppend_evictedTo _ _ _)

/-! ### What the teardown leaves in any case -/

/-- The state that the blocks have torn down, before the append of SESSION_EVENT (R173). -/
def State.tearDown (s : State) (p : Port) : State := ((s.discardSession p).tearDownBlocks p).dropFromSnapshot p

theorem State.endSession_eq (s : State) (p : Port) (event : SessionEventKind) :
    s.endSession p event = (s.tearDown p).appendNow (.sessionEvent p event) := rfl

/-- A record on the port makes no difference to the end of its session. -/
theorem State.setSession_endSession (s : State) (p : Port) (x : Option Session) (event : SessionEventKind) :
    (s.setSession p x).endSession p event = s.endSession p event := by
  have same : (s.setSession p x).discardSession p = s.discardSession p := by
    simp only [State.discardSession_eq, State.setSession_sessions, PerPort.set_set]
    rfl
  rw [State.endSession, State.endSession, same]

/-- A retry touches the store, the journal and the sessions, and seals nothing. -/
theorem State.retryStarved_shape (s : State) : ∃ st j ss, s.retryStarved = { s with store := st, journal := j, sessions := ss }
    ∧ ∀ c ∈ st.sealedCaptures, c ∈ s.store.sealedCaptures := by
  rcases s.retryStarved_cases with ⟨-, h⟩ | ⟨-, h⟩
  · have slot : ∃ st j ss, (s.takeSlot [] s.nowTick s.nowHc).1 = { s with store := st, journal := j, sessions := ss }
        ∧ ∀ c ∈ st.sealedCaptures, c ∈ s.store.sealedCaptures := by
      rcases s.takeSlot_cases [] s.nowTick s.nowHc with ⟨_, -, e⟩ | ⟨-, ⟨-, e⟩ | ⟨c, -, e⟩⟩ <;> rw [e]
      · exact ⟨_, _, _, rfl, fun _ hc => hc⟩
      · exact ⟨_, _, _, rfl, fun _ hc => hc⟩
      · rw [State.reclaim_eq]
        exact ⟨_, _, _, rfl, fun _ hc => List.mem_of_mem_filter hc⟩
    obtain ⟨st, j, ss, hs, hc⟩ := slot
    rcases s.armStore_cases s.nowTick s.nowHc with ⟨t, _, ht, e⟩ | ⟨t, ht, e⟩ <;>
      (rw [ht] at hs; subst hs; exact ⟨_, j, ss, h.trans e, hc⟩)
  · exact ⟨_, _, _, h, fun _ hc => hc⟩

/-- Leaving the holder sets touches the store, the journal and the sessions, and no set has the host (R99). -/
theorem State.dropFromCaptures_shape (s : State) (p : Port) :
    ∃ st j ss, s.dropFromCaptures p = { s with store := st, journal := j, sessions := ss }
      ∧ ∀ c ∈ st.sealedCaptures, c.holders.get p = false := by
  obtain ⟨st, j, ss, h, hc⟩ := State.retryStarved_shape
    { s with store := { s.store with sealedCaptures := s.store.sealedCaptures.map (Capture.dropHolder p) } }
  refine ⟨st, j, ss, h, fun c hm => ?_⟩
  obtain ⟨d, -, rfl⟩ := List.mem_map.mp (hc c hm)
  exact PerPort.get_set_self _ _ _

/-- The lease of the holder passing on, but for what the journal and the sessions see of it (R136, R137). -/
theorem State.passLease_shape {s : State} {p : Port} (h : s.holdsLease p = true) : ∃ j ss, s.passLease = { s with
    lease := (s.leaseWithout p).1, queue := (s.leaseWithout p).2, journal := j, sessions := ss } := by
  obtain ⟨t, ht, hp⟩ := Option.map_eq_some_iff.mp ((s.holdsLease_iff p).mp h)
  rcases s.passLease_cases with ⟨hq, e⟩ | ⟨w, rest, hq, e⟩
  · have hw : s.leaseWithout p = (none, []) := by simp only [State.leaseWithout, ht, hp, hq, ne_eq, not_true_eq_false, if_false]
    exact ⟨_, _, by rw [e, hw, ← hq]⟩
  · have hw : s.leaseWithout p = (some (s.newTenure w.host w.seconds), rest) := by
      simp only [State.leaseWithout, ht, hp, hq, ne_eq, not_true_eq_false, if_false]
      rfl
    exact ⟨_, _, by rw [e, hw]; rfl⟩

/-- In every order the blocks leave the lease and the queue without the session, and no holder set that has it (R99, R136). -/
theorem State.tearDownBlocks_shape (s : State) (p : Port) : ∃ st j ss, s.tearDownBlocks p = { s with
    draws := s.draws + 1, lease := (s.leaseWithout p).1, queue := (s.leaseWithout p).2, store := st, journal := j, sessions := ss }
    ∧ ∀ c ∈ st.sealedCaptures, c.holders.get p = false := by
  let u : State := { s with draws := s.draws + 1 }
  have dropThenForfeit : ∃ st j ss, (u.dropFromCaptures p).forfeitLease p = { u with
      lease := (s.leaseWithout p).1, queue := (s.leaseWithout p).2, store := st, journal := j, sessions := ss }
      ∧ ∀ c ∈ st.sealedCaptures, c.holders.get p = false := by
    obtain ⟨st, j, ss, h, hc⟩ := u.dropFromCaptures_shape p
    rw [h, State.forfeitLease_eq]
    exact ⟨st, _, _, rfl, hc⟩
  simp only [State.tearDownBlocks]
  split
  · obtain ⟨st, j, ss, h, hc⟩ := (u.forfeitLease p).dropFromCaptures_shape p
    refine ⟨st, j, ss, h.trans ?_, hc⟩
    rw [State.forfeitLease_eq]
    rfl
  · split
    · exact dropThenForfeit
    · split
      · rename_i hp
        obtain ⟨st, j, ss, h, hc⟩ := (u.handNow .leaseArbiter (.leaseEvent .forfeited p)).dropFromCaptures_shape p
        obtain ⟨j', ss', h'⟩ := State.passLease_shape
          (s := { u.handNow .leaseArbiter (.leaseEvent .forfeited p) with store := st, journal := j, sessions := ss }) (p := p) hp
        exact ⟨st, j', ss', (congrArg State.passLease h).trans h', hc⟩
      · exact dropThenForfeit

/-- What the teardown leaves whatever is reclaimed: the store, the journal and the other sessions follow from that (R26, R126). -/
theorem State.tearDown_shape (s : State) (p : Port) : ∃ st j ss, s.tearDown p = { s with
    token := s.tokenWithout p, draws := s.draws + 1, lease := (s.leaseWithout p).1, queue := (s.leaseWithout p).2
    energy := { s.energy with
      pendingSnapshot := s.energy.pendingSnapshot.map fun y => { y with requesters := y.requesters.set p false } }
    store := st, journal := j, sessions := ss } ∧ ∀ c ∈ st.sealedCaptures, c.holders.get p = false := by
  obtain ⟨st, j, ss, h, hc⟩ := (s.discardSession p).tearDownBlocks_shape p
  refine ⟨st, j, ss, ?_, hc⟩
  rw [State.tearDown, h, State.dropFromSnapshot_eq, State.discardSession_eq]
  rfl

theorem State.tearDown_quiet (s : State) (p : Port) : Quiet (s.discardSession p) (s.tearDown p) :=
  (State.tearDownBlocks_quiet _ p).trans (State.dropFromSnapshot_quiet _ p)

/-! ### The end of a session, field by field -/

/-- The lease and the queue that are left have no part of the session, where a holder does not wait (R132). -/
theorem State.leaseWithout_apart {s : State} (h : s.LeaseLaw) (p : Port) :
    (∀ t, (s.leaseWithout p).1 = some t → t.holder ≠ p) ∧ ∀ w ∈ (s.leaseWithout p).2, w.host ≠ p := by
  have filtered : ∀ w ∈ s.queue.filter fun w => decide (w.host ≠ p), w.host ≠ p := fun w hw => of_decide_eq_true (List.mem_filter.mp hw).2
  cases hl : s.lease with
  | none =>
    simp only [State.leaseWithout, hl]
    exact ⟨fun t ht => (by cases ht), filtered⟩
  | some t =>
    by_cases ht : t.holder = p
    · have waits : ∀ w ∈ s.queue, w.host ≠ p := fun w hw e =>
        (h.1 t hl).2 (ht ▸ List.mem_map.mpr ⟨w, hw, e⟩)
      cases hq : s.queue with
      | nil =>
        simp only [State.leaseWithout, hl, ht, hq, ne_eq, not_true_eq_false, if_false]
        exact ⟨fun t ht => (by cases ht), fun w hw => (by cases hw)⟩
      | cons w rest =>
        rw [hq] at waits
        simp only [State.leaseWithout, hl, ht, hq, ne_eq, not_true_eq_false, if_false]
        exact ⟨fun t ht => by cases ht; exact waits w List.mem_cons_self, fun v hv => waits v (List.mem_cons_of_mem _ hv)⟩
    · simp only [State.leaseWithout, hl, ht, ne_eq, not_false_eq_true, if_true]
      exact ⟨fun t' ht' => by cases ht'; exact ht, filtered⟩

/-- A session with no part in the lease or the queue leaves both. -/
theorem State.leaseWithout_other {s : State} {p : Port} (hl : ∀ t, s.lease = some t → t.holder ≠ p)
    (hq : ∀ w ∈ s.queue, w.host ≠ p) : s.leaseWithout p = (s.lease, s.queue) := by
  have kept : (s.queue.filter fun w => decide (w.host ≠ p)) = s.queue :=
    List.filter_eq_self.mpr fun w hw => decide_eq_true (hq w hw)
  cases h : s.lease with
  | none => simp only [State.leaseWithout, h, kept]
  | some t => simp only [State.leaseWithout, h, hl t h, kept, ne_eq, not_false_eq_true, if_true]

theorem State.leaseEntriesAtEnd_length (s : State) (p : Port) : (s.leaseEntriesAtEnd p).length ≤ 2 := by
  have granted : (s.grantedAtEnd p).toList.length ≤ 1 := Option.length_toList_le
  unfold State.leaseEntriesAtEnd
  split
  · exact Nat.zero_le _
  · split
    · rw [List.length_cons, List.length_map]; omega
    · exact Nat.zero_le _

theorem reclaimBodies_length (r : Option (Capture × SlotId)) : (reclaimBodies r).length ≤ 1 := by
  rw [reclaimBodies, List.length_map]
  exact Option.length_toList_le

theorem Holding.forfeited_isOpen (h : Holding) (p : Port) : (h.forfeited p).isOpen = h.isOpen := by
  unfold Holding.forfeited Holding.passed
  split
  · split <;> rfl
  · rfl

section
variable (s : State) (p : Port) (event : SessionEventKind)

/-- No other session ends. -/
theorem State.endSession_isSome (q : Port) :
    ((s.endSession p event).1.session q).isSome = if q = p then false else (s.session q).isSome := by
  rw [← State.holding_isOpen, State.endSession_holding, Holding.forfeited_isOpen, Holding.closed, PerPort.get_set,
    State.holding_isOpen]

theorem State.endSession_journal :
    (s.tearDown p).journal.entries = s.journal.entries ∧ (s.tearDown p).journal.nextSeq = s.journal.nextSeq
      ∧ (s.endSession p event).1.journal.epoch = s.journal.epoch := by
  have torn := s.tearDown_quiet p
  have whole : Storing (s.discardSession p) (s.endSession p event).1 := .trans (.quiet torn) (State.appendNow_storing _ _)
  have h1 := torn.entries
  have h2 := torn.nextSeq
  have h3 := whole.epoch
  rw [State.discardSession_journal] at h1 h2 h3
  exact ⟨h1, h2, h3⟩

theorem State.endSession_links : (s.endSession p event).1.links = s.links ∧ (s.endSession p event).1.portC = s.portC := by
  obtain ⟨_, _, _, h, -⟩ := s.tearDown_shape p
  rw [State.endSession_eq, State.appendNow_links, State.appendNow_portC, h]
  exact ⟨rfl, rfl⟩

theorem State.tearDown_counters : (s.tearDown p).nowTick = s.front.tick ∧ (s.tearDown p).nowHc = s.front.hc := by
  obtain ⟨_, _, _, h, -⟩ := s.tearDown_shape p
  rw [h]
  exact ⟨rfl, rfl⟩

/-- SESSION_EVENT stands at the newest end with its number, or is counted and the number is 0. -/
theorem State.endSession_appended : State.Appended (s.endSession p event) s.front.tick s.front.hc (.sessionEvent p event) := by
  obtain ⟨htick, hhc⟩ := s.tearDown_counters p
  have h := (s.tearDown p).appendNow_appended (.sessionEvent p event)
  rw [htick, hhc] at h
  exact h

variable {s p event}

/-- Another session in HOLD that pins the oldest of 384 entries keeps the journal as it is. -/
theorem State.endSession_heldBack {e : Entry} {es : List Entry} {q : Port} {x : Session} (he : s.journal.entries = e :: es)
    (full : s.journal.entries.length = journalCapacity) (hq : q ≠ p) (ht : s.token = some q) (hx : s.session q = some x)
    (hpins : x.pinsEntry s.journal.nextSeq e = true) :
    (s.endSession p event).2 = none ∧ (s.endSession p event).1.journal.entries = s.journal.entries
      ∧ (s.endSession p event).1.journal.nextSeq = s.journal.nextSeq := by
  obtain ⟨hentries, hnext, -⟩ := s.endSession_journal p event
  have hx' : (s.discardSession p).session q = some x := by rw [State.discardSession_session, if_neg hq, hx]
  obtain ⟨y, hy, hr⟩ := (s.tearDown_quiet p).session hx'
  have htoken : (s.tearDown p).token = some q := by
    rw [(s.tearDown_quiet p).token, State.discardSession_token, State.tokenWithout, ht, if_neg fun h => hq (Option.some.inj h)]
  have held : (s.tearDown p).heldBack e = true :=
    (State.heldBack_iff _ _).mpr ⟨q, y, htoken, hy, by rw [Session.pinsEntry_of_reader hr, hnext]; exact hpins⟩
  have appended := State.appendNow_heldBack (hentries.trans he) (by rw [hentries]; exact full) held (.sessionEvent p event)
  rw [hentries, hnext] at appended
  exact appended

section
variable {r : Option (Capture × SlotId)}

/-- Another session after the teardown: latched for a grant and for a reclaim (R96, R137). -/
theorem State.tornDown_session {ws : List Append} {draws : Nat} {q : Port} {x : Session} (hq : q ≠ p) (hx : s.session q = some x) :
    (s.tornDown p r ws draws).session q = some (Session.afterReclaim r q (Session.afterGrant (s.grantedAtEnd p) q x)) := by
  show ((s.sessions.set p none).mapWith _).get q = _
  rw [PerPort.get_mapWith, PerPort.get_set_ne _ _ hq, show s.sessions.get q = some x from hx]
  rfl

/-- With room the journal takes what waits, the teardown's entries and SESSION_EVENT (log 4, 10). -/
theorem State.endSession_room (hr : s.RetryAtEnd p r) (ht : s.journal.tally.isEmpty = true)
    (room : s.journal.entries.length + s.journal.waiting.length + 4 ≤ journalCapacity) :
    ∃ ws l1 l2 n, s.leaseEntriesAtEnd p = l1 ++ l2 ∧ s.endSession p event =
      ({ s.tornDown p r ws (s.draws + 1) with journal := { s.journal with
        waiting := []
        entries := s.journal.entries ++ entriesFrom s.journal.nextSeq ((s.journal.waiting.map fun a => (a.tick, a.hc, a.body))
          ++ ((l1 ++ reclaimBodies r ++ l2).map fun b => (s.front.tick, s.front.hc, b))
          ++ [(s.front.tick, s.front.hc, .sessionEvent p event)])
        nextSeq := seqSucc n } }, some n) := by
  obtain ⟨ws, l1, l2, hlease, hws, torn⟩ := s.tearDown_eq p r hr
  have hlength : ws.length ≤ 3 := by
    have total := congrArg List.length hws
    have leases := s.leaseEntriesAtEnd_length p
    have reclaims := reclaimBodies_length r
    rw [hlease] at leases
    simp only [List.length_map, List.length_append] at total leases
    omega
  have fits : (s.tornDown p r ws (s.draws + 1)).journal.entries.length + (s.tornDown p r ws (s.draws + 1)).journal.waiting.length + 1
      ≤ journalCapacity := by
    show s.journal.entries.length + (s.journal.waiting ++ ws).length + 1 ≤ _
    rw [List.length_append]
    omega
  refine ⟨ws, l1, l2, seqAfter s.journal.nextSeq (s.journal.waiting ++ ws).length, hlease, ?_⟩
  rw [State.endSession_eq, State.tearDown, torn, State.appendNow_room (s := s.tornDown p r ws (s.draws + 1)) _ ht fits, ← hws, ← List.map_append]
  rfl

end
end

/-! ### The commands -/

/-- A command's answer touches the links and the attention lines. -/
theorem State.replied_eq (s : State) (p : Port) (tag : Byte) (r : Reply) : s.replied p tag r = { s with
    links := (s.replied p tag r).links, portC := (s.replied p tag r).portC, attnLow := (s.replied p tag r).attnLow } := by
  cases p <;> rfl

/-- An answer at the links depends on the links alone. -/
theorem State.replied_links {s t : State} (hl : t.links = s.links) (hc : t.portC = s.portC) (p : Port) (tag : Byte) (r : Reply) :
    (t.replied p tag r).links = (s.answer p (responseOf tag r)).links
      ∧ (t.replied p tag r).portC = (s.answer p (responseOf tag r)).portC := by
  cases p <;> simp [State.replied, State.answer, State.drive, hl, hc]

/-- Settles O45: the three causes are one end of the session. -/
theorem sessionEnds : Obligations.SessionEnds := by
  unfold Obligations.SessionEnds
  intro ended
  have key : ∀ (s : State) (p : Port) (event : SessionEventKind), s.LeaseLaw → ∀ links portC attnLow,
      ended s { (s.endSession p event).1 with links := links, portC := portC, attnLow := attnLow } p event
        (seqOrZero (s.endSession p event).2) := by
    intro s p event law links portC attnLow
    simp only [ended]
    obtain ⟨st, j, ss, torn, noHolder⟩ := s.tearDown_shape p
    obtain ⟨holderApart, waitersApart⟩ := State.leaseWithout_apart law p
    have field : ∀ {α : Type} (f : State → α), f (s.endSession p event).1 = f (s.tearDown p) →
        f (s.endSession p event).1 = f { s with
          token := s.tokenWithout p, draws := s.draws + 1, lease := (s.leaseWithout p).1, queue := (s.leaseWithout p).2
          energy := { s.energy with
            pendingSnapshot := s.energy.pendingSnapshot.map fun y => { y with requesters := y.requesters.set p false } }
          store := st, journal := j, sessions := ss } := fun f h => h.trans (congrArg f torn)
    have hlease : (s.endSession p event).1.lease = (s.leaseWithout p).1 := field State.lease (State.appendNow_lease _ _)
    have hqueue : (s.endSession p event).1.queue = (s.leaseWithout p).2 := field State.queue (State.appendNow_queue _ _)
    have hstore : (s.endSession p event).1.store = st := field State.store (State.appendNow_store _ _)
    have hsome := s.endSession_isSome p event
    have happended := s.endSession_appended p event
    refine ⟨?_, fun q hq => (hsome q).trans (if_neg hq), field State.token (State.appendNow_token _ _), fun c hc => ?_,
      hlease, hqueue, fun l hl => holderApart l (hlease.symm.trans hl), fun w hw => waitersApart w (by rw [← hqueue]; exact hw),
      fun hl hq => ?_, field State.energy (State.appendNow_energy _ _), field State.front (State.appendNow_front _ _),
      field State.det (State.appendNow_det _ _), field State.config (State.appendNow_config _ _),
      field State.pins (State.appendNow_pins _ _), field State.pending (State.appendNow_pending _ _),
      (s.endSession_journal p event).2.2, State.appendNow_waiting _ _, ?_, fun e es q x he full hq ht hx hpins => ?_,
      fun reclaimed hr => ⟨?_, fun q x hq hx => ?_, fun hroom => ?_⟩⟩
    · exact Option.isNone_iff_eq_none.mp (Option.isSome_eq_false_iff.mp ((hsome p).trans (if_pos rfl)))
    · exact noHolder c (by rw [← hstore]; exact hc)
    · have same := State.leaseWithout_other hl hq
      rw [same] at hlease hqueue
      exact ⟨hlease, hqueue⟩
    · rcases happended with ⟨seq, hn, hlast⟩ | ⟨hn, hcount⟩
      · exact .inl (by rw [hn]; exact hlast)
      · exact .inr ⟨by rw [hn]; rfl, hcount⟩
    · obtain ⟨hn, hentries, hnext⟩ := State.endSession_heldBack (event := event) he full hq ht hx hpins
      exact ⟨by rw [hn]; rfl, hentries, hnext⟩
    · obtain ⟨ws, -, -, -, -, h⟩ := s.tearDown_eq p reclaimed hr
      refine (State.appendNow_store _ _).trans ((congrArg State.store h).trans ?_)
      cases reclaimed <;> rfl
    · obtain ⟨ws, -, -, -, -, h⟩ := s.tearDown_eq p reclaimed hr
      have hq' : (s.tearDown p).session q = _ := (congrArg (fun t => State.session t q) h).trans (State.tornDown_session hq hx)
      obtain ⟨y, hy, cursor, ackPoint, overrunCount, overrun, rfl⟩ :=
        (s.tearDown p).appendNow_evictedTo (.sessionEvent p event) q _ hq'
      refine ⟨cursor, ackPoint, overrunCount, overrun, hy, fun hroom => ?_⟩
      obtain ⟨ws', _, _, _, -, hend⟩ := State.endSession_room (event := event) hr hroom.1 hroom.2
      have hkept : (s.endSession p event).1.session q = _ :=
        (congrArg (fun out => State.session out.1 q) hend).trans (State.tornDown_session (ws := ws') (draws := s.draws + 1) hq hx)
      exact hkept
    · obtain ⟨ws, l1, l2, n, hl, hend⟩ := State.endSession_room (event := event) hr hroom.1 hroom.2
      have hlast : (s.endSession p event).1.journal.entries.getLast? =
          some { seq := seqOrZero (s.endSession p event).2, tick := s.front.tick, hc := s.front.hc, body := .sessionEvent p event } := by
        rcases happended with ⟨seq, hn, hlast⟩ | ⟨hn, -⟩
        · rw [hn]; exact hlast
        · rw [hend] at hn; cases hn
      refine ⟨l1, l2, hl, ?_, hlast, ?_, ?_⟩
      · exact congrArg (fun out => out.1.journal.entries) hend
      · rw [hend]; rfl
      · rw [hend]
  refine ⟨fun s p tag x ready law hx => ?_, fun s p x due hrun law hx hdue hreached => ?_, fun s hrun law => ?_⟩
  · let out := s.endSession p .closed
    let reply := Reply.ok (be32 (seqOrZero out.2))
    have hp : (s.setSession p (some (s.touched p x))).perform p (s.deadlineFrom p) .closeSession = (out.1, reply) := by
      refine (State.withSession_some (State.session_setSession ..) _).trans ?_
      rw [State.setSession_endSession]
    obtain ⟨hl, hc⟩ := s.endSession_links p .closed
    obtain ⟨hl', hc'⟩ := State.replied_links hl hc p tag reply
    refine ⟨_, seqOrZero out.2, exec_replied (r := .closeSession) ready hx rfl hp, ?_, hl', hc'⟩
    rw [State.replied_eq]
    exact key s p .closed law _ _ _
  · obtain ⟨hl, hc⟩ := s.endSession_links p .expired
    have idle : s.idleOver p = true := by simp only [State.idleOver, hx, hdue]; exact hreached
    refine ⟨(s.endSession p .expired).1.drive, seqOrZero (s.endSession p .expired).2, ?_, key s p .expired law _ _ _, hl, hc⟩
    show execIdleExpiry p s = _
    rw [execIdleExpiry, State.whenRunning_of_running hrun, if_pos idle]
  · have run : ∀ {t : State}, (if (s.session .c).isSome then (s.endSession .c .portReset).1 else s) = t →
        exec .lineBreak s = .next (t.onPortC AsyncLink.broken).drive := by
      intro t ht
      show execLineBreak s = _
      rw [execLineBreak, State.whenRunning_of_running hrun, ht]
    cases hx : s.session .c with
    | none =>
      exact ⟨_, run (by rw [hx]; rfl), rfl, rfl, fun _ => rfl, fun x h => (by cases h)⟩
    | some x =>
      obtain ⟨hl, hc⟩ := s.endSession_links .c .portReset
      exact ⟨_, run (by rw [hx]; rfl), congrArg AsyncLink.broken hc, hl, fun h => (by cases h),
        fun _ _ => ⟨seqOrZero (s.endSession .c .portReset).2, key s .c .portReset law _ _ _⟩⟩

end Sys2Proof.Machine
end

section
/-! SUPPORT. Rounding (R45, R51, R52): the floor that `rootBits` finds bit by bit, the RMS as a nearest integer to the root of the mean, and the
rounded quotient. -/

namespace Sys2Proof.Machine

/-! ### The root of the mean (R51) -/

/-- The next bit is taken or left so that the root stays between the two bounds, whose distance halves. -/
theorem rootBits_bounds {sum frames : Nat} (bits r : Nat) (low : r * r * frames ≤ sum)
    (high : sum < (r + 2 ^ bits) * (r + 2 ^ bits) * frames) :
    rootBits sum frames bits r * rootBits sum frames bits r * frames ≤ sum
      ∧ sum < (rootBits sum frames bits r + 1) * (rootBits sum frames bits r + 1) * frames := by
  induction bits generalizing r with
  | zero => exact ⟨low, high⟩
  | succ bits ih =>
    rw [rootBits]
    split
    · rename_i taken
      refine ih _ taken ?_
      rwa [Nat.add_assoc, ← Nat.two_mul, ← Nat.pow_succ']
    · rename_i left
      exact ih _ low (Nat.lt_of_not_le left)

/-- Seventeen bits are enough for the mean of squares of 16-bit magnitudes. -/
theorem rootBits_isFloor {sum frames : Nat} (hf : 0 < frames) (hs : sum ≤ 65535 * 65535 * frames) :
    let r := rootBits sum frames 17 0
    r * r * frames ≤ sum ∧ sum < (r + 1) * (r + 1) * frames :=
  rootBits_bounds 17 0 (by omega) (by omega)

/-- An integer lies within one half of the root of the mean. -/
def IsNearestRoot (sum frames r : Nat) : Prop :=
  4 * sum ≤ (2 * r + 1) * (2 * r + 1) * frames ∧ (r = 0 ∨ (2 * r - 1) * (2 * r - 1) * frames ≤ 4 * sum)

/-- The floor is nearest where the root lies at most one half above it. -/
theorem isNearestRoot_floor {sum frames r : Nat} (floor : r * r * frames ≤ sum)
    (near : 4 * sum ≤ (2 * r + 1) * (2 * r + 1) * frames) : IsNearestRoot sum frames r := by
  refine ⟨near, .inr ?_⟩
  calc (2 * r - 1) * (2 * r - 1) * frames
      ≤ (2 * r) * (2 * r) * frames := by gcongr <;> omega
    _ = 4 * (r * r * frames) := by ring
    _ ≤ 4 * sum := by omega

/-- The integer above the floor is nearest where the root lies at least one half above the floor. -/
theorem isNearestRoot_above {sum frames r : Nat} (ceil : sum < (r + 1) * (r + 1) * frames)
    (near : (2 * r + 1) * (2 * r + 1) * frames ≤ 4 * sum) : IsNearestRoot sum frames (r + 1) := by
  refine ⟨?_, .inr near⟩
  calc 4 * sum
      ≤ 4 * ((r + 1) * (r + 1) * frames) := by omega
    _ = (2 * (r + 1)) * (2 * (r + 1)) * frames := by ring
    _ ≤ (2 * (r + 1) + 1) * (2 * (r + 1) + 1) * frames := by gcongr <;> omega

/-- Below the half the RMS is the floor, above it the next integer, and at the half either, which are both nearest. -/
theorem rootMeanSquare_isNearest {sum frames : Nat} (hf : 0 < frames) (hs : sum ≤ 65535 * 65535 * frames) :
    IsNearestRoot sum frames (rootMeanSquare sum frames) := by
  obtain ⟨floor, ceil⟩ := rootBits_isFloor hf hs
  simp only [rootMeanSquare]
  split
  · exact isNearestRoot_floor floor (by omega)
  · split
    · exact isNearestRoot_above ceil (by omega)
    · split
      · exact isNearestRoot_above ceil (by omega)
      · exact isNearestRoot_floor floor (by omega)

/-! ### The rounded quotient (R45, R52) -/

/-- The magnitude of a rounded quotient. -/
def roundMagnitude (a d : Nat) : Nat := (2 * a + d) / (2 * d)

/-- It is the quotient of the magnitudes with the sign put back. -/
theorem roundDiv_eq (x : Int) (d : Nat) :
    roundDiv x d = if x < 0 then -(roundMagnitude x.natAbs d : Int) else roundMagnitude x.natAbs d := rfl

theorem roundDiv_natAbs (x : Int) (d : Nat) : (roundDiv x d).natAbs = roundMagnitude x.natAbs d := by
  rw [roundDiv_eq]
  split <;> omega

/-- The product with the divisor lies from one half of it above the dividend to less than one half below. -/
theorem roundMagnitude_bounds (a : Nat) {d : Nat} (hd : 0 < d) :
    2 * (d * roundMagnitude a d) ≤ 2 * a + d ∧ 2 * a < 2 * (d * roundMagnitude a d) + d := by
  have hlow : 2 * d * roundMagnitude a d ≤ 2 * a + d := Nat.mul_div_le _ _
  have hhigh : 2 * a + d < 2 * d * roundMagnitude a d + 2 * d := Nat.lt_mul_div_succ _ (by omega)
  rw [Nat.mul_assoc] at hlow hhigh
  omega

/-- The error of a rounded quotient is that of the magnitudes. -/
theorem roundDiv_error (x : Int) (d : Nat) :
    (x - d * roundDiv x d).natAbs = ((x.natAbs : Int) - (d * roundMagnitude x.natAbs d : Nat)).natAbs := by
  rw [roundDiv_eq]
  rw [Nat.cast_mul]
  split
  · rw [Int.mul_neg]; omega
  · omega

/-- Settles O12: the floor of the root and the two integers that can be nearest, and the bounds on the rounded magnitude. -/
theorem roundingIsNearest : Obligations.RoundingIsNearest := by
  refine ⟨fun sum frames hf hs => rootMeanSquare_isNearest hf hs, fun x d hd => ?_⟩
  obtain ⟨hlow, hhigh⟩ := roundMagnitude_bounds x.natAbs hd
  rw [roundDiv_error, roundDiv_natAbs]
  omega

end Sys2Proof.Machine
end

section
/-! SUPPORT. The Front End (chapter 3): the line state after a close, and a frame taken as the handing to the Capture Store, the close or the
joining, and the sample left behind. -/

namespace Sys2Proof.Machine

/-! ### The line state (R56, R57) -/

/-- Outside TRACKING a synthetic close sets the run to 0. -/
theorem lineAfter_synthetic {state : LineState} (h : state ≠ .tracking) (run : Nat) : lineAfter state run true = (state, 0, none) := by
  cases state with
  | tracking => exact absurd rfl h
  | acquiring => rfl
  | lost => rfl

/-- Outside TRACKING a genuine close raises the run, and the fourth leads to TRACKING. -/
theorem lineAfter_genuine {state : LineState} (h : state ≠ .tracking) (run : Nat) : lineAfter state run false =
    if run + 1 < 4 then (state, run + 1, none) else (.tracking, 0, some .tracking) := by
  cases state with
  | tracking => exact absurd rfl h
  | acquiring => rfl
  | lost => rfl

/-- Settles O11: the table row by row. -/
theorem lineStateTable : Obligations.LineStateTable := by
  refine ⟨fun state run h hrun => ?_, fun state h => lineAfter_genuine h 3, fun state run h => lineAfter_synthetic h run,
    fun run => rfl, fun run => rfl⟩
  rw [lineAfter_genuine h, if_pos (by omega)]

/-! ### A frame taken (R44, R48, R49) -/

/-- A frame handed to the Capture Store with the tick and hc as they stand (R44). -/
def State.handFrame (s : State) (f : Frame) : State :=
  { s with store := { s.store with inbox := s.store.inbox ++ [CapEvent.frame ⟨f, s.front.tick, s.front.hc⟩] } }

/-- The sign and the U sample that a frame leaves behind (R48, R52). -/
def State.leaveSample (s : State) (negative : Bool) (history : List W16) : State :=
  { s with front := { s.front with prevNegative := some negative, uHistory := history } }

/-- Whether a frame of a sign is an accepted crossing (R48): against another kept sign, with the guard frames in the open half-cycle. -/
def FrontEnd.accepts (fe : FrontEnd) (negative : Bool) : Bool :=
  fe.prevNegative == some (!negative) && decide (32 ≤ fe.opened.n)

/-- A frame taken: handed on, then an accepted crossing closes, else the wait limit does, else the frame joins, and its sample stays. -/
theorem State.takeFrame_eq (s : State) (raw : Frame) :
    let f := scaleFrame s.front.s0 raw
    let negative := decide (f.u.toInt < 0)
    s.takeFrame raw =
      (if s.front.accepts negative = true then (s.handFrame f).closeHalfCycle raw (if negative then .pos else .neg) false
        else if waitLimit s.front.s0 s.front.wait ≤ s.front.opened.n then (s.handFrame f).closeHalfCycle raw .noSign true
        else (s.handFrame f).joinFrame f).leaveSample negative ((f.u :: s.front.uHistory).take 32) := by
  intro f negative
  have hsign : f.u.msb = negative := BitVec.msb_eq_toInt
  simp only [State.takeFrame, FrontEnd.accepts, ← hsign]
  cases s.front.prevNegative with
  | none => rfl
  | some was =>
    have differs : (some was == some !f.u.msb) = (was != f.u.msb) := by cases was <;> cases f.u.msb <;> rfl
    rw [differs]
    rfl

/-- The journal with the LINE_EVENT that a close hands to it, where there is one (R57). -/
def Journal.withLineEvent (j : Journal) (tick hc : W32) : Option LineEventKind → Journal
  | none => j
  | some e => { j with waiting := j.waiting ++ ([⟨.frontEnd, tick, hc, .lineEvent e⟩] : List Append) }

/-- The LINE_EVENT of a close touches the journal alone. -/
theorem State.handLineEvent_eq (s : State) (hc : W32) (event : Option LineEventKind) :
    s.handLineEvent hc event = { s with journal := s.journal.withLineEvent s.front.tick hc event } := by
  cases event with
  | none => rfl
  | some e => rfl

/-- A frame that is no accepted crossing, below the wait limit. -/
theorem State.takeFrame_joins {s : State} (raw : Frame) :
    let f := scaleFrame s.front.s0 raw
    let negative := decide (f.u.toInt < 0)
    s.front.accepts negative = false → s.front.opened.n < waitLimit s.front.s0 s.front.wait →
    s.takeFrame raw = ((s.handFrame f).joinFrame f).leaveSample negative ((f.u :: s.front.uHistory).take 32) := by
  intro f negative hno hbelow
  rw [State.takeFrame_eq, if_neg (ne_true_of_eq_false hno), if_neg (Nat.not_le.mpr hbelow)]

/-- An accepted crossing, or a frame that finds the wait limit reached. -/
theorem State.takeFrame_closes {s : State} (raw : Frame) :
    let f := scaleFrame s.front.s0 raw
    let negative := decide (f.u.toInt < 0)
    let genuine := s.front.accepts negative
    (genuine = true ∨ waitLimit s.front.s0 s.front.wait ≤ s.front.opened.n) →
    s.takeFrame raw = ((s.handFrame f).closeHalfCycle raw (if genuine then (if negative then .pos else .neg) else .noSign)
      (!genuine)).leaveSample negative ((f.u :: s.front.uHistory).take 32) := by
  intro f negative genuine h
  rw [State.takeFrame_eq]
  cases hg : genuine with
  | true => rw [if_pos hg]; rfl
  | false => rw [if_neg (ne_true_of_eq_false hg), if_pos (h.resolve_left (ne_true_of_eq_false hg))]; rfl

theorem exec_frameTaken {s : State} (h : s.pins.resetLow = false) (u ia ib : W16) :
    exec (.frameTaken u ia ib) s = .next (s.takeFrame ⟨u, ia, ib⟩).drive :=
  State.whenRunning_of_running h fun s => s.takeFrame ⟨u, ia, ib⟩

/-- Settles O9: the frame is no accepted crossing and finds the wait limit not reached. -/
theorem frameJoins : Obligations.FrameJoins := by
  intro u ia ib s hrun f guard below
  have hno : s.front.accepts (decide (f.u.toInt < 0)) = false := by
    rw [FrontEnd.accepts, Bool.and_eq_false_imp]
    intro crosses
    exact decide_eq_false (Nat.not_le.mpr (guard (eq_of_beq crosses)))
  rw [exec_frameTaken hrun, State.takeFrame_joins _ hno below]
  rfl

/-- Settles O10: the genuine and the synthetic close are one operation, which moves the journal by the LINE_EVENT alone. -/
theorem frameCloses : Obligations.FrameCloses := by
  intro u ia ib s hrun fe f negative genuine hclose summary line
  refine ⟨_, by rw [exec_frameTaken hrun, State.takeFrame_closes _ hclose], ?_⟩
  simp only [State.closeHalfCycle, State.handLineEvent_eq]
  refine ⟨rfl, rfl, rfl, rfl, rfl, rfl, rfl, rfl, ?_, rfl, rfl, rfl, rfl, rfl, rfl, fun h => ?_, fun e h => ?_, rfl⟩
  · show (if (!genuine) = true then WaitKind.interval else .timeout) = if genuine = true then .timeout else .interval
    cases genuine <;> rfl
  · exact congrArg (s.journal.withLineEvent fe.tick (fe.hc + 1)) h
  · exact congrArg (s.journal.withLineEvent fe.tick (fe.hc + 1)) h

end Sys2Proof.Machine
end

section
/-! SUPPORT. Triggers (5.3): the next capture id is one that no record holds (R84), and CAPTURE_TRIGGER by the trigger drawn and the mode that it
finds. -/

namespace Sys2Proof.Machine

/-! ### The next capture id (R84) -/

theorem idSucc_ne_zero (x : W16) : idSucc x ≠ 0 := by
  rw [idSucc]
  split <;> bv_omega

/-- The successor counts from 1 to 65535 and round again, from 0 too. -/
theorem idSucc_toNat (x : W16) : (idSucc x).toNat = x.toNat % 65535 + 1 := by
  rw [idSucc]
  split <;> bv_omega

theorem idSucc_iterate_toNat (n : Nat) (x : W16) : (idSucc^[n + 1] x).toNat = (x.toNat + n) % 65535 + 1 := by
  induction n with
  | zero => exact idSucc_toNat x
  | succ n ih =>
    rw [Function.iterate_succ_apply', idSucc_toNat, ih]
    omega

/-- The ids that the search tries are distinct. -/
theorem idSucc_iterate_nodup (x : W16) {n : Nat} (hn : n ≤ 65535) : ((List.range n).map fun k => idSucc^[k + 1] x).Nodup := by
  refine List.Nodup.map_on (fun i hi j hj h => ?_) List.nodup_range
  have hnat := congrArg BitVec.toNat h
  rw [idSucc_iterate_toNat, idSucc_iterate_toNat] at hnat
  rw [List.mem_range] at hi hj
  omega

theorem nextCaptureId_ne_zero (held : List W16) (fuel : Nat) (id : W16) : nextCaptureId held (fuel + 1) id ≠ 0 := by
  induction fuel generalizing id with
  | zero => rw [nextCaptureId, nextCaptureId, ite_self]; exact idSucc_ne_zero id
  | succ fuel ih =>
    rw [nextCaptureId]
    split
    · exact ih _
    · exact idSucc_ne_zero id

/-- The search ends at a held id only when every id that it tried is held. -/
theorem nextCaptureId_held {held : List W16} {fuel : Nat} {id : W16} (h : nextCaptureId held fuel id ∈ held) :
    ∀ k < fuel, idSucc^[k + 1] id ∈ held := by
  induction fuel generalizing id with
  | zero => exact fun k hk => absurd hk (Nat.not_lt_zero k)
  | succ fuel ih =>
    rw [nextCaptureId] at h
    split at h
    · rename_i first
      intro k hk
      cases k with
      | zero => exact List.contains_iff_mem.mp first
      | succ k => exact ih h k (Nat.lt_of_succ_lt_succ hk)
    · rename_i free
      exact absurd (List.contains_iff_mem.mpr h) free

/-- With more tries than held ids the search finds one that is not held. -/
theorem nextCaptureId_not_mem {held : List W16} {fuel : Nat} (hlen : held.length < fuel) (hfuel : fuel ≤ 65535) (id : W16) :
    nextCaptureId held fuel id ∉ held := by
  intro h
  have tried : ((List.range fuel).map fun k => idSucc^[k + 1] id) ⊆ held := by
    intro x hx
    obtain ⟨k, hk, rfl⟩ := List.mem_map.mp hx
    exact nextCaptureId_held h k (List.mem_range.mp hk)
  have hle := ((idSucc_iterate_nodup id hfuel).subperm tried).length_le
  rw [List.length_map, List.length_range] at hle
  omega

/-! ### CAPTURE_TRIGGER (R87 to R91) -/

/-- With no trigger that may be taken, nothing is (log 3). -/
theorem exec_captureTrigger_none {s : State} (hrun : s.pins.resetLow = false) (h : s.drawTrigger = none) :
    exec .captureTrigger s = .next s.drive := by
  show execCaptureTrigger s = _
  simp only [execCaptureTrigger, State.whenRunning_of_running hrun, h]

/-- The trigger drawn leaves the inbox and is taken by the store. -/
theorem exec_captureTrigger_some {s drawn : State} {g : WaitingTrigger} {rest : List CapEvent} (hrun : s.pins.resetLow = false)
    (h : s.drawTrigger = some (g, rest, drawn)) :
    exec .captureTrigger s = .next ((drawn.setCapInbox rest).takeTrigger g.source g.tick g.hc).drive := by
  show execCaptureTrigger s = _
  simp only [execCaptureTrigger, State.whenRunning_of_running hrun, h]

/-- A trigger in POST (R89): listed while fewer than eight are, else counted, and the continue flag where the chain may grow. -/
theorem Capture.joined_eq (c : Capture) (source : TrigSource) (hc : W32) :
    c.joined source hc =
      (let c' : Capture :=
        if c.moreTriggers.length + 1 < 8 then
          { c with moreTriggers := c.moreTriggers ++ [{ source := source, offset := c.frames.length, hc := hc }] }
        else { c with extra := min 255 (c.extra + 1) }
      if c.slots.length < c.chainLimit then { c' with continueFlag := true } else c') := by
  simp only [Capture.joined, Capture.listsNext_iff]
  rfl

/-- Settles O30: the trigger drawn, by the mode that it finds. -/
theorem triggerByStoreState : Obligations.TriggerByStoreState := by
  refine ⟨fun s hrun h => exec_captureTrigger_none hrun (State.drawTrigger_none h), fun s hrun h => ?_⟩
  obtain ⟨g, rest, drawn, hdraw, may, counted⟩ := State.drawTrigger_some h
  have run := exec_captureTrigger_some hrun hdraw
  obtain ⟨n, hn⟩ : ∃ n, drawn = { s with draws := n } := by
    obtain ⟨h, -⟩ | ⟨h, -⟩ := counted
    · exact ⟨s.draws, h⟩
    · exact ⟨s.draws + 1, h⟩
  have mode : (drawn.setCapInbox rest).store.mode = s.store.mode := by rw [hn]; rfl
  refine ⟨g, rest, drawn, may, counted, fun slot ring hm => ?_, fun c hm => ?_, fun hm => ?_, fun hm => ?_⟩
  · intro pre
    rw [State.takeTrigger_live _ _ _ (mode.trans hm)] at run
    subst hn
    refine ⟨_, _, run, rfl, rfl, rfl, rfl, nextCaptureId_ne_zero _ 9 _, fun hlen => ?_, rfl⟩
    exact nextCaptureId_not_mem (by rw [List.length_cons, List.length_map]; omega) (by omega) _
  · rw [State.takeTrigger_post _ _ _ (mode.trans hm), Capture.joined_eq] at run
    subst hn
    exact run
  · rw [State.takeTrigger_disarmed _ _ _ (mode.trans hm)] at run
    subst hn
    exact run
  · rw [State.takeTrigger_starved _ _ _ (mode.trans hm)] at run
    subst hn
    exact run

end Sys2Proof.Machine
end

section
/-! SUPPORT. The Detector Bank (chapter 4): judging by state, and the judging of all six at a close, where each moves by its own record and at most
one opens or closes its episode. -/

namespace Sys2Proof.Machine

/-! ### Judging one half-cycle (R63, R65 to R68, R70) -/

theorem DetId.isBelow_iff (d : DetId) : d.isBelow = true ↔ d = .uDip ∨ d = .uIntr := by
  cases d <;> simp [DetId.isBelow]

theorem beyond_iff (d : DetId) (cfg : DetCfg) (input : Nat) :
    beyond d cfg input = true ↔ if d = .uDip ∨ d = .uIntr then input < cfg.onset.toNat else cfg.onset.toNat < input := by
  simp only [beyond, DetId.isBelow_iff]
  split <;> exact decide_eq_true_iff

theorem released_iff (d : DetId) (cfg : DetCfg) (input : Nat) :
    released d cfg input = true ↔ if d = .uDip ∨ d = .uIntr then cfg.release.toNat ≤ input else input ≤ cfg.release.toNat := by
  simp only [released, DetId.isBelow_iff]
  split <;> exact decide_eq_true_iff

theorem moveExtreme_eq (d : DetId) (extreme input : Nat) :
    moveExtreme d extreme input = if d = .uDip ∨ d = .uIntr then min extreme input else max extreme input := by
  simp only [moveExtreme, DetId.isBelow_iff]

/-- Settles O24: the rule of the state and the outcome of its test. -/
theorem detectorTable : Obligations.DetectorTable := by
  intro d input hc x below extreme age
  have hextreme : moveExtreme d x.extreme input = extreme := moveExtreme_eq d x.extreme input
  refine ⟨beyond_iff d x.cfg input, released_iff d x.cfg input, fun hs => ?idle, fun hs ht => ?quiet, fun hs ht => ?quietBeyond,
    fun hs ht => ?onset, fun hs ht => ?onsetBeyond, fun hs ht => ?active, fun hs ht => ?activeReleased, fun hs ht => ?release,
    fun hs ht => ?releaseReleased⟩
  case idle => simp only [judge, hs]
  case quiet | quietBeyond => simp only [judge, hs, judgeQuiet, ht, Bool.false_eq_true, if_false, if_true]
  case onset => simp only [judge, hs, judgeOnset, ht, Bool.false_eq_true, if_false, Detector.cleared]
  case onsetBeyond => simp only [judge, hs, judgeOnset, ht, if_true, hextreme]; rfl
  case active | activeReleased =>
    simp only [judge, hs, judgeActive, ht, Bool.false_eq_true, if_false, if_true, hextreme]; rfl
  case release | releaseReleased =>
    simp only [judge, hs, judgeRelease, ht, Bool.false_eq_true, if_false, if_true, hextreme]; rfl

/-! ### Each detector moved by its own record -/

/-- One detector replaced by what its record becomes, and the appends that its record calls for handed to the journal. -/
def State.workDet (move : DetId → Detector → Detector) (entries : DetId → Detector → List Append) (s : State) (d : DetId) : State :=
  { s with
    det := { s.det with dets := s.det.dets.set d (move d (s.det.dets.get d)) }
    journal := { s.journal with waiting := s.journal.waiting ++ entries d (s.det.dets.get d) } }

/-- The work of distinct detectors, in an order: each acts on the record that was there before all of it. -/
theorem State.foldl_workDet (move : DetId → Detector → Detector) (entries : DetId → Detector → List Append) {l : List DetId}
    (distinct : l.Nodup) (s : State) : l.foldl (State.workDet move entries) s = { s with
      det := { s.det with dets := s.det.dets.mapWith fun i x => if i ∈ l then move i x else x }
      journal := { s.journal with waiting := s.journal.waiting ++ l.flatMap fun i => entries i (s.det.dets.get i) } } := by
  induction l generalizing s with
  | nil =>
    have same : s.det.dets.mapWith (fun _ x => x) = s.det.dets := rfl
    simp only [List.foldl_nil, List.not_mem_nil, if_false, same, List.flatMap_nil, List.append_nil]
  | cons d l ih =>
    obtain ⟨hd, distinct⟩ := List.nodup_cons.mp distinct
    have records : (s.workDet move entries d).det.dets.mapWith (fun i x => if i ∈ l then move i x else x)
        = s.det.dets.mapWith fun i x => if i ∈ d :: l then move i x else x := by
      refine PerDet.ext_get fun i => ?_
      simp only [PerDet.get_mapWith, State.workDet, PerDet.get_set, List.mem_cons]
      by_cases hi : i = d
      · subst hi; simp only [hd, if_false, if_true, true_or]
      · simp only [hi, if_false, false_or]
    have handed : (l.flatMap fun i => entries i ((s.workDet move entries d).det.dets.get i))
        = l.flatMap fun i => entries i (s.det.dets.get i) :=
      List.flatMap_congr fun i hi => by
        rw [State.workDet, PerDet.get_set_ne _ _ (ne_of_mem_of_not_mem hi hd)]
    rw [List.foldl_cons, ih distinct, records, handed, List.flatMap_cons, ← List.append_assoc]
    rfl

theorem mem_allDetectors (d : DetId) : d ∈ allDetectors := by cases d <;> decide

theorem allDetectors_nodup : allDetectors.Nodup := by decide

/-- All six detectors at once. -/
theorem State.foldl_workDet_all (move : DetId → Detector → Detector) (entries : DetId → Detector → List Append) (s : State) :
    allDetectors.foldl (State.workDet move entries) s = { s with
      det := { s.det with dets := s.det.dets.mapWith move }
      journal := { s.journal with waiting := s.journal.waiting ++ allDetectors.flatMap fun i => entries i (s.det.dets.get i) } } := by
  rw [State.foldl_workDet move entries allDetectors_nodup]
  simp only [mem_allDetectors, if_true]

/-! ### Judging at a close (R64) -/

/-- Step 1 of a close at which no record has changed. -/
theorem State.foldl_updateDetector_same (close : HandedClose) {s : State}
    (h : ∀ d, (s.det.dets.get d).cfg = s.config.committed.det.get d) : allDetectors.foldl (State.updateDetector close) s = s :=
  List.foldl_fixed' (fun d => if_pos (h d)) _

/-- One detector's record judged against a summary. -/
def Detector.judged (close : HandedClose) (d : DetId) (x : Detector) : Detector × Judgement :=
  judge d (d.input close.summary) close.summary.hc x

theorem State.judgeDetector_nothing {close : HandedClose} {s : State} {d : DetId}
    (h : ((s.det.dets.get d).judged close d).2 = .nothing) :
    s.judgeDetector close d = s.setDet d ((s.det.dets.get d).judged close d).1 := by
  rw [State.judgeDetector, ← Detector.judged, ← Prod.eta (Detector.judged close d _), h]

theorem State.judgeDetector_opens {close : HandedClose} {s : State} {d : DetId}
    (h : ((s.det.dets.get d).judged close d).2 = .opens) :
    s.judgeDetector close d = s.openEpisode d ((s.det.dets.get d).judged close d).1 close := by
  rw [State.judgeDetector, ← Detector.judged, ← Prod.eta (Detector.judged close d _), h]

theorem State.judgeDetector_closes {close : HandedClose} {s : State} {d : DetId}
    (h : ((s.det.dets.get d).judged close d).2 = .closes) :
    s.judgeDetector close d = s.closeEpisode d ((s.det.dets.get d).judged close d).1 close := by
  rw [State.judgeDetector, ← Detector.judged, ← Prod.eta (Detector.judged close d _), h]

/-- Detectors judged one after another, none of which opens or closes an episode. -/
theorem State.foldl_judgeDetector_nothing {close : HandedClose} {l : List DetId} (distinct : l.Nodup) {s : State}
    (h : ∀ d ∈ l, ((s.det.dets.get d).judged close d).2 = .nothing) :
    l.foldl (State.judgeDetector close) s = { s with
      det := { s.det with dets := s.det.dets.mapWith fun i x => if i ∈ l then (x.judged close i).1 else x } } := by
  have asWork : l.foldl (State.judgeDetector close) s
      = l.foldl (State.workDet (fun i x => (x.judged close i).1) fun _ _ => []) s := by
    induction l generalizing s with
    | nil => rfl
    | cons d l ih =>
      obtain ⟨hd, distinct⟩ := List.nodup_cons.mp distinct
      have first : s.judgeDetector close d = s.workDet (fun i x => (x.judged close i).1) (fun _ _ => []) d := by
        rw [State.judgeDetector_nothing (h d List.mem_cons_self), State.workDet, List.append_nil]; rfl
      rw [List.foldl_cons, List.foldl_cons, first]
      refine ih distinct fun i hi => ?_
      rw [State.workDet, PerDet.get_set_ne _ _ (ne_of_mem_of_not_mem hi hd)]
      exact h i (List.mem_cons_of_mem _ hi)
  have nothing : (l.flatMap fun _ => ([] : List Append)) = [] := by simp
  rw [asWork, State.foldl_workDet _ _ distinct, nothing, List.append_nil]

/-- The summaries that wait for the Detector Bank replaced. -/
def State.setDetInbox (s : State) (rest : List HandedClose) : State := { s with det := { s.det with inbox := rest } }

theorem exec_detectorClose {s : State} {close : HandedClose} {rest : List HandedClose} (hrun : s.pins.resetLow = false)
    (hin : s.det.inbox = close :: rest) :
    exec .detectorClose s = .next ((s.setDetInbox rest).takeDetectorClose close).drive := by
  show execDetectorClose s = _
  simp only [execDetectorClose, State.whenRunning_of_running hrun, hin]
  rfl

/-- A close at which no record has changed and no episode opens or closes. -/
theorem State.takeDetectorClose_nothing {close : HandedClose} {s : State}
    (same : ∀ d, (s.det.dets.get d).cfg = s.config.committed.det.get d)
    (h : ∀ d, ((s.det.dets.get d).judged close d).2 = .nothing) :
    s.takeDetectorClose close = { s with det := { s.det with dets := s.det.dets.mapWith fun i x => (x.judged close i).1 } } := by
  rw [State.takeDetectorClose, State.foldl_updateDetector_same close same,
    State.foldl_judgeDetector_nothing allDetectors_nodup fun d _ => h d]
  simp only [mem_allDetectors, if_true]

/-- Settles O25: with no record changed step 1 does nothing, and with no episode opened or closed step 2 replaces records alone. -/
theorem detectorClose : Obligations.DetectorClose := by
  intro s close rest hrun hin judged h
  have taken := State.takeDetectorClose_nothing (s := s.setDetInbox rest) (close := close) (fun d => (h d).1) (fun d => (h d).2)
  rw [exec_detectorClose hrun hin, taken]
  rfl

/-! ### One episode opens or closes at a close (R69, R71, R73, R74) -/

/-- One detector replaced where its episode opens or closes: the next episode number, an append handed to the journal, and triggers to the
Capture Store. -/
def State.episodeWork (s : State) (close : HandedClose) (d : DetId) (x : Detector) (next : W16) (body : EntryBody)
    (triggers : List CapEvent) : State :=
  { s with
    det := { s.det with dets := s.det.dets.set d x, nextEpisode := next }
    journal := { s.journal with waiting := s.journal.waiting ++ ([⟨.detectorBank, close.tick, close.summary.hc, body⟩] : List Append) }
    store := { s.store with inbox := s.store.inbox ++ triggers } }

theorem State.openEpisode_eq (s : State) (d : DetId) (x : Detector) (close : HandedClose) :
    s.openEpisode d x close = s.episodeWork close d { x with state := .active, run := 0, episode := s.det.nextEpisode }
      (idSucc s.det.nextEpisode) (.episodeOpen d s.det.nextEpisode x.startHc x.extreme)
      (if x.cfg.trigOnset = 1 then [CapEvent.trigger (.onset d) close.tick close.summary.hc] else []) := by
  simp only [State.openEpisode, State.episodeWork]
  split
  · rfl
  · rw [List.append_nil]; rfl

theorem State.closeEpisode_eq (s : State) (d : DetId) (x : Detector) (close : HandedClose) :
    s.closeEpisode d x close = s.episodeWork close d ((x.tallied x.span).cleared .quiet) s.det.nextEpisode
      (.episodeClose d x.episode x.startHc x.span x.extreme .normal)
      (if x.cfg.trigRelease = 1 then [CapEvent.trigger (.release d) close.tick close.summary.hc] else []) := by
  simp only [State.closeEpisode, State.episodeWork]
  split
  · rfl
  · rw [List.append_nil]; rfl

/-- The detector order around one of the six: every other stands before it or after it, and not on both sides. -/
theorem allDetectors_around (d : DetId) : ∃ before after, allDetectors = before ++ d :: after ∧ before.Nodup ∧ after.Nodup
    ∧ d ∉ before ∧ d ∉ after ∧ ∀ i, i ≠ d → (i ∈ after ↔ i ∉ before) := by
  obtain ⟨before, after, order⟩ := List.append_of_mem (mem_allDetectors d)
  have distinct := allDetectors_nodup
  rw [order, List.nodup_append, List.nodup_cons] at distinct
  obtain ⟨distinctBefore, ⟨notAfter, distinctAfter⟩, apart⟩ := distinct
  refine ⟨before, after, order, distinctBefore, distinctAfter, fun hd => apart d hd d List.mem_cons_self rfl, notAfter, fun i hi => ?_⟩
  have hmem := mem_allDetectors i
  rw [order, List.mem_append, List.mem_cons] at hmem
  exact ⟨fun ha hb => apart i hb i (List.mem_cons_of_mem _ ha) rfl, fun hb => (hmem.resolve_left hb).resolve_left hi⟩

/-- A close at which no record has changed and the judging of one detector is such work: the others are judged before it and after it, and do
not touch what it reads. -/
theorem State.takeDetectorClose_one {close : HandedClose} {s : State} {d : DetId} {x : Detector} {next : W16} {body : EntryBody}
    {triggers : List CapEvent} (same : ∀ i, (s.det.dets.get i).cfg = s.config.committed.det.get i)
    (others : ∀ i, i ≠ d → ((s.det.dets.get i).judged close i).2 = .nothing)
    (one : ∀ t : State, t.det.dets.get d = s.det.dets.get d → t.det.nextEpisode = s.det.nextEpisode →
      t.judgeDetector close d = t.episodeWork close d x next body triggers) :
    s.takeDetectorClose close =
      State.episodeWork { s with det := { s.det with dets := s.det.dets.mapWith fun i y => (y.judged close i).1 } }
        close d x next body triggers := by
  obtain ⟨before, after, order, distinctBefore, distinctAfter, notBefore, notAfter, sides⟩ := allDetectors_around d
  have first := State.foldl_judgeDetector_nothing (close := close) distinctBefore (s := s)
    fun i hi => others i (ne_of_mem_of_not_mem hi notBefore)
  generalize hearlier : before.foldl (State.judgeDetector close) s = earlier at first
  have own : earlier.det.dets.get d = s.det.dets.get d := by simp only [first, PerDet.get_mapWith, notBefore, if_false]
  have worked := one earlier own (by rw [first])
  have later : ∀ i ∈ after, (((earlier.episodeWork close d x next body triggers).det.dets.get i).judged close i).2 = .nothing := by
    intro i ha
    have hd : i ≠ d := ne_of_mem_of_not_mem ha notAfter
    have hb : i ∉ before := (sides i hd).mp ha
    simp only [first, State.episodeWork, PerDet.get_set, PerDet.get_mapWith, hd, hb, if_false, others i hd]
  rw [State.takeDetectorClose, State.foldl_updateDetector_same close same, order, List.foldl_append, List.foldl_cons, hearlier, worked,
    State.foldl_judgeDetector_nothing distinctAfter later]
  subst first
  simp only [State.episodeWork]
  congr 2
  refine PerDet.ext_get fun i => ?_
  simp only [PerDet.get_mapWith, PerDet.get_set]
  by_cases hd : i = d
  · subst hd; simp only [notAfter, if_true, if_false]
  · by_cases hb : i ∈ before <;> simp only [hd, hb, sides i hd, not_true_eq_false, not_false_eq_true, if_true, if_false]

/-- DETECTOR_CLOSE where the judging of one detector is such work, block by block. -/
theorem exec_detectorClose_one {s : State} {close : HandedClose} {rest : List HandedClose} {d : DetId} {x : Detector} {next : W16}
    {body : EntryBody} {triggers : List CapEvent} (hrun : s.pins.resetLow = false) (hin : s.det.inbox = close :: rest)
    (same : ∀ i, (s.det.dets.get i).cfg = s.config.committed.det.get i)
    (others : ∀ i, i ≠ d → ((s.det.dets.get i).judged close i).2 = .nothing)
    (one : ∀ t : State, t.det.dets.get d = s.det.dets.get d → t.det.nextEpisode = s.det.nextEpisode →
      t.judgeDetector close d = t.episodeWork close d x next body triggers) :
    ∃ t, exec .detectorClose s = .next t ∧ t.det.dets.get d = x
      ∧ (∀ i, i ≠ d → t.det.dets.get i = ((s.det.dets.get i).judged close i).1)
      ∧ t.det.nextEpisode = next ∧ t.det.inbox = rest
      ∧ t.journal = { s.journal with
          waiting := s.journal.waiting ++ ([⟨.detectorBank, close.tick, close.summary.hc, body⟩] : List Append) }
      ∧ t.store = { s.store with inbox := s.store.inbox ++ triggers }
      ∧ t = { s with det := t.det, journal := t.journal, store := t.store, attnLow := t.attnLow } := by
  have run := exec_detectorClose hrun hin
  rw [State.takeDetectorClose_one (s := s.setDetInbox rest) same others one] at run
  refine ⟨_, run, PerDet.get_set_self .., fun i hi => ?_, rfl, rfl, rfl, rfl, rfl⟩
  exact (PerDet.get_set_ne _ _ hi).trans (PerDet.get_mapWith _ _ i)

/-- Settles O26: the work of the detector whose run is complete. -/
theorem episodesOpenAndClose : Obligations.EpisodesOpenAndClose := by
  intro s close rest d hrun hin hc judged x same others
  refine ⟨fun h => ?opens, fun h => ?closes⟩
  case opens =>
    refine exec_detectorClose_one hrun hin same others fun t own number => ?_
    have ht : ((t.det.dets.get d).judged close d).2 = .opens := by rw [own]; exact h
    rw [State.judgeDetector_opens ht, State.openEpisode_eq, own, number]
    rfl
  case closes =>
    refine exec_detectorClose_one hrun hin same others fun t own number => ?_
    have ht : ((t.det.dets.get d).judged close d).2 = .closes := by rw [own]; exact h
    rw [State.judgeDetector_closes ht, State.closeEpisode_eq, own, number]
    rfl

end Sys2Proof.Machine
end

section
/-! SUPPORT. A changed S1 record (4.7): the table of R78, and step 1 of a close as the work of all six detectors. -/

namespace Sys2Proof.Machine

/-! ### The table of R78 -/

section
variable {x : Detector} {old new : DetCfg}

theorem Detector.movedBy_disabled (hold : old.enable = 1) (hnew : new.enable ≠ 1) :
    x.movedBy old new = Detector.cleared { x with cfg := new } .idle := if_pos ⟨hold, hnew⟩

theorem Detector.movedBy_enabled (hold : old.enable ≠ 1) (hnew : new.enable = 1) :
    x.movedBy old new = Detector.cleared { x with cfg := new } .quiet := by
  simp only [Detector.movedBy, hold, hnew, false_and, if_false, ne_eq, not_false_eq_true, true_and, if_true]

theorem Detector.movedBy_off (hold : old.enable ≠ 1) (hnew : new.enable ≠ 1) : x.movedBy old new = { x with cfg := new } := by
  simp only [Detector.movedBy, hold, hnew, false_and, and_false, if_false, ne_eq, not_false_eq_true, if_true]

section
variable (hold : old.enable = 1) (hnew : new.enable = 1)
include hold hnew

theorem Detector.movedBy_onset (differ : levelsOrCountsDiffer old new = true) (hs : x.state = .onset) :
    x.movedBy old new = Detector.cleared { x with cfg := new } .quiet := by
  simp only [Detector.movedBy, hold, hnew, differ, hs, ne_eq, not_true_eq_false, and_false, false_and, if_false, if_true]

theorem Detector.movedBy_release (differ : levelsOrCountsDiffer old new = true) (hs : x.state = .release) :
    x.movedBy old new = { x with cfg := new, state := .active, run := 0, span := x.age } := by
  simp only [Detector.movedBy, hold, hnew, differ, hs, ne_eq, not_true_eq_false, and_false, false_and, if_false, if_true]

theorem Detector.movedBy_kept (ho : ¬ (levelsOrCountsDiffer old new = true ∧ x.state = .onset))
    (hr : ¬ (levelsOrCountsDiffer old new = true ∧ x.state = .release)) : x.movedBy old new = { x with cfg := new } := by
  simp only [Detector.movedBy, hold, hnew, ne_eq, not_true_eq_false, and_false, false_and, if_false]
  split
  · rename_i differ
    cases hs : x.state with
    | onset => exact absurd ⟨differ, hs⟩ ho
    | release => exact absurd ⟨differ, hs⟩ hr
    | idle | quiet | active => rfl
  · rfl

end

/-- The table as one case distinction. -/
theorem Detector.movedBy_eq (x : Detector) (new : DetCfg) :
    x.movedBy x.cfg new =
      if x.cfg.enable = 1 ∧ new.enable ≠ 1 then Detector.cleared { x with cfg := new } .idle
      else if new.enable = 1 ∧ (x.cfg.enable ≠ 1 ∨ (levelsOrCountsDiffer x.cfg new = true ∧ x.state = .onset)) then
        Detector.cleared { x with cfg := new } .quiet
      else if new.enable = 1 ∧ levelsOrCountsDiffer x.cfg new = true ∧ x.state = .release then
        { x with cfg := new, state := .active, run := 0, span := x.age }
      else { x with cfg := new } := by
  by_cases hold : x.cfg.enable = 1
  · by_cases hnew : new.enable = 1
    · have stays : ¬ (x.cfg.enable = 1 ∧ new.enable ≠ 1) := fun h => h.2 hnew
      by_cases ho : levelsOrCountsDiffer x.cfg new = true ∧ x.state = .onset
      · rw [Detector.movedBy_onset hold hnew ho.1 ho.2, if_neg stays, if_pos ⟨hnew, .inr ho⟩]
      · have noRun : ¬ (new.enable = 1 ∧ (x.cfg.enable ≠ 1 ∨ (levelsOrCountsDiffer x.cfg new = true ∧ x.state = .onset))) :=
          fun h => h.2.elim (fun off => off hold) ho
        by_cases hr : levelsOrCountsDiffer x.cfg new = true ∧ x.state = .release
        · rw [Detector.movedBy_release hold hnew hr.1 hr.2, if_neg stays, if_neg noRun, if_pos ⟨hnew, hr⟩]
        · rw [Detector.movedBy_kept hold hnew ho hr, if_neg stays, if_neg noRun, if_neg fun h => hr h.2]
    · rw [Detector.movedBy_disabled hold hnew, if_pos ⟨hold, hnew⟩]
  · by_cases hnew : new.enable = 1
    · rw [Detector.movedBy_enabled hold hnew, if_neg fun h => hold h.1, if_pos ⟨hnew, .inl hold⟩]
    · rw [Detector.movedBy_off hold hnew, if_neg fun h => hold h.1, if_neg fun h => hnew h.1, if_neg fun h => hnew h.1]

theorem Detector.movedBy_cfg (x : Detector) (new : DetCfg) : (x.movedBy x.cfg new).cfg = new := by
  rw [Detector.movedBy_eq]
  split_ifs <;> rfl

end

theorem enable_ne_one {r : DetCfg} (h : r.enable = 0) : r.enable ≠ 1 := by rw [h]; decide

/-! ### What a changed record makes of a detector (R78, R79) -/

/-- A record that disables a detector with an open episode. -/
def Detector.isCut (x : Detector) (new : DetCfg) : Bool :=
  decide (x.cfg.enable = 1 ∧ new.enable ≠ 1) && decide (x.state = .active ∨ x.state = .release)

/-- A detector after step 1 of a close. -/
def Detector.updated (x : Detector) (new : DetCfg) (hc : W32) : Detector :=
  if x.cfg = new then x
  else if x.isCut new then (Detector.tallied { x with cfg := new } (cutDuration x hc)).cleared .idle
  else x.movedBy x.cfg new

/-- The EPISODE_CLOSE of an episode that step 1 of a close cuts. -/
def Detector.cutEntry (close : HandedClose) (d : DetId) (x : Detector) : Append :=
  ⟨.detectorBank, close.tick, close.summary.hc,
    .episodeClose d x.episode x.startHc (cutDuration x close.summary.hc) x.extreme .cutByConfig⟩

theorem Detector.isCut_iff (x : Detector) (new : DetCfg) :
    x.isCut new = true ↔ x.cfg.enable = 1 ∧ new.enable ≠ 1 ∧ (x.state = .active ∨ x.state = .release) := by
  rw [Detector.isCut, Bool.and_eq_true, decide_eq_true_iff, decide_eq_true_iff, and_assoc]

theorem Detector.isCut_self (x : Detector) : x.isCut x.cfg = false := by
  rw [← Bool.not_eq_true, Detector.isCut_iff]
  exact fun ⟨h, hn, _⟩ => hn h

section
variable {x : Detector} {new : DetCfg}

theorem Detector.isCut_of_enabled (h : new.enable = 1) : x.isCut new = false := by
  rw [← Bool.not_eq_true, Detector.isCut_iff]
  exact fun ⟨_, hn, _⟩ => hn h

theorem Detector.isCut_of_off (h : x.cfg.enable ≠ 1) : x.isCut new = false := by
  rw [← Bool.not_eq_true, Detector.isCut_iff]
  exact fun ⟨hx, _⟩ => h hx

theorem Detector.isCut_of_closed (h : x.state = .quiet ∨ x.state = .onset) : x.isCut new = false := by
  rw [← Bool.not_eq_true, Detector.isCut_iff]
  rintro ⟨-, -, hs⟩
  rcases h with h | h <;> simp [h] at hs

end

theorem Detector.updated_cfg (x : Detector) (new : DetCfg) (hc : W32) : (x.updated new hc).cfg = new := by
  rw [Detector.updated]
  split_ifs with hcfg
  · exact hcfg
  · rfl
  · exact x.movedBy_cfg new

/-- Step 1 for one detector is the work of its own record. -/
theorem State.updateDetector_eq (close : HandedClose) (s : State) (d : DetId) :
    s.updateDetector close d = s.workDet (fun i x => x.updated (s.config.committed.det.get i) close.summary.hc)
      (fun i x => if x.isCut (s.config.committed.det.get i) then [x.cutEntry close i] else []) d := by
  by_cases hcfg : (s.det.dets.get d).cfg = s.config.committed.det.get d
  · have hcut := Detector.isCut_self (s.det.dets.get d)
    simp only [State.updateDetector, State.workDet, Detector.updated, ← hcfg, hcut, Bool.false_eq_true, if_false, if_true,
      PerDet.set_get_self, List.append_nil]
  · simp only [State.updateDetector, State.workDet, Detector.updated, if_neg hcfg, ← Detector.isCut_iff]
    split
    · rfl
    · rw [List.append_nil]; rfl

/-- Step 1 for some detectors, in an order, is their work: none of it touches the committed records. -/
theorem State.foldl_updateDetector_eq_workDet (close : HandedClose) (l : List DetId) (s : State) :
    l.foldl (State.updateDetector close) s
      = l.foldl (State.workDet (fun i x => x.updated (s.config.committed.det.get i) close.summary.hc)
          (fun i x => if x.isCut (s.config.committed.det.get i) then [x.cutEntry close i] else [])) s := by
  induction l generalizing s with
  | nil => rfl
  | cons d l ih => rw [List.foldl_cons, List.foldl_cons, State.updateDetector_eq, ih]; rfl

theorem flatMap_singleton_if {α β : Type} (chosen : α → Bool) (f : α → β) (l : List α) :
    (l.flatMap fun a => if chosen a then [f a] else []) = (l.filter chosen).map f := by
  induction l with
  | nil => rfl
  | cons a l ih => cases h : chosen a <;> simp [h, ih]

/-- Step 1 for all six. -/
theorem State.foldl_updateDetector (close : HandedClose) (s : State) :
    allDetectors.foldl (State.updateDetector close) s = { s with
      det := { s.det with dets := s.det.dets.mapWith fun i x => x.updated (s.config.committed.det.get i) close.summary.hc }
      journal := { s.journal with waiting := s.journal.waiting ++
        (allDetectors.filter fun i => (s.det.dets.get i).isCut (s.config.committed.det.get i)).map fun i =>
          (s.det.dets.get i).cutEntry close i } } := by
  rw [State.foldl_updateDetector_eq_workDet, State.foldl_workDet_all, flatMap_singleton_if]

/-! ### Step 1 of a close (R64, R78, R79) -/

section
variable {close : HandedClose} {s : State} {d : DetId} (hcfg : (s.det.dets.get d).cfg ≠ s.config.committed.det.get d)
include hcfg

theorem State.updateDetector_cut (h : (s.det.dets.get d).isCut (s.config.committed.det.get d) = true) :
    s.updateDetector close d = s.cutEpisode d { s.det.dets.get d with cfg := s.config.committed.det.get d } close := by
  rw [State.updateDetector]
  simp only [if_neg hcfg, ← Detector.isCut_iff, h, if_true]

/-- Step 1 for a detector whose changed record cuts no episode. -/
theorem State.updateDetector_moved (h : (s.det.dets.get d).isCut (s.config.committed.det.get d) = false) :
    s.updateDetector close d = s.setDet d ((s.det.dets.get d).movedBy (s.det.dets.get d).cfg (s.config.committed.det.get d)) := by
  rw [State.updateDetector]
  simp only [if_neg hcfg, ← Detector.isCut_iff, h, Bool.false_eq_true, if_false]

end

/-- The state after step 1 of a close. -/
def State.withCommittedDetectors (s : State) (close : HandedClose) : State := { s with
  det := { s.det with dets := s.det.dets.mapWith fun i x => x.updated (s.config.committed.det.get i) close.summary.hc }
  journal := { s.journal with waiting := s.journal.waiting ++
    (allDetectors.filter fun i => (s.det.dets.get i).isCut (s.config.committed.det.get i)).map fun i =>
      (s.det.dets.get i).cutEntry close i } }

theorem State.withCommittedDetectors_same (s : State) (close : HandedClose) (d : DetId) :
    ((s.withCommittedDetectors close).det.dets.get d).cfg = (s.withCommittedDetectors close).config.committed.det.get d := by
  rw [State.withCommittedDetectors, PerDet.get_mapWith, Detector.updated_cfg]

/-- A close after step 1 is a close at which no record has changed. -/
theorem State.takeDetectorClose_withCommitted (s : State) (close : HandedClose) :
    s.takeDetectorClose close = (s.withCommittedDetectors close).takeDetectorClose close := by
  rw [State.takeDetectorClose, State.takeDetectorClose, State.foldl_updateDetector, ← State.withCommittedDetectors,
    State.foldl_updateDetector_same close (s.withCommittedDetectors_same close)]

/-- Settles O27: the first part row by row of R78, the second by step 1 as the work of all six. -/
theorem changedDetector : Obligations.ChangedDetector := by
  refine ⟨?table, ?close⟩
  case table =>
    intro s close d x new t hcfg
    have moved (h : x.isCut new = false) {y : Detector} (hy : x.movedBy x.cfg new = y) :
        t.det.dets.get d = y ∧ t.journal = s.journal := by
      have ht : t = s.setDet d y := by rw [← hy]; exact State.updateDetector_moved hcfg h
      rw [ht]
      exact ⟨PerDet.get_set_self .., rfl⟩
    refine ⟨fun i hi => ?others, fun hold hnew hs => ?cut, fun hold hnew hs => ?disabled, fun hold hnew => ?enabled,
      fun hold hnew => ?off, fun hold hnew differ hs => ?onset, fun hold hnew differ hs => ?release, fun hold hnew h => ?kept⟩
    case others => exact (congrArg (·.det.dets.get i) (State.updateDetector_eq close s d)).trans (PerDet.get_set_ne _ _ hi)
    case cut =>
      have hcut : x.isCut new = true := (x.isCut_iff new).mpr ⟨hold, enable_ne_one hnew, hs⟩
      have ht : t = s.cutEpisode d { x with cfg := new } close := State.updateDetector_cut hcfg hcut
      rw [ht]
      exact ⟨PerDet.get_set_self .., rfl, rfl⟩
    case disabled => exact moved (Detector.isCut_of_closed hs) (Detector.movedBy_disabled hold (enable_ne_one hnew))
    case enabled =>
      obtain ⟨hget, hjournal⟩ := moved (Detector.isCut_of_enabled hnew) (Detector.movedBy_enabled (enable_ne_one hold) hnew)
      rw [hget]
      exact ⟨rfl, rfl, hjournal⟩
    case off => exact moved (Detector.isCut_of_off (enable_ne_one hold)) (Detector.movedBy_off (enable_ne_one hold) (enable_ne_one hnew))
    case onset => exact moved (Detector.isCut_of_enabled hnew) (Detector.movedBy_onset hold hnew differ hs)
    case release => exact moved (Detector.isCut_of_enabled hnew) (Detector.movedBy_release hold hnew differ hs)
    case kept =>
      refine moved (Detector.isCut_of_enabled hnew) (Detector.movedBy_kept hold hnew ?_ ?_)
      · rintro ⟨differ, hs⟩; simp [differ, hs] at h
      · rintro ⟨differ, hs⟩; simp [differ, hs] at h
  case close =>
    intro s close rest hrun hin hc new disabled isCut duration emptied updated cuts after judged
    have records : s.det.dets.mapWith updated = (s.withCommittedDetectors close).det.dets := by
      refine PerDet.ext_get fun i => ?_
      simp only [PerDet.get_mapWith, State.withCommittedDetectors, Detector.updated, Detector.movedBy_eq]
      simp only [updated, disabled, decide_eq_true_iff]
      rfl
    have hafter : after = s.withCommittedDetectors close := by
      simp only [after, records]
      rfl
    have runAfter := exec_detectorClose (s := after) (close := close) (rest := rest) hrun hin
    have same : exec .detectorClose s = exec .detectorClose after := by
      rw [exec_detectorClose hrun hin, State.takeDetectorClose_withCommitted, runAfter, hafter]
      rfl
    refine ⟨same, fun h => ?_⟩
    have taken := State.takeDetectorClose_nothing (s := after.setDetInbox rest) (close := close)
      (by rw [hafter]; exact s.withCommittedDetectors_same close) h
    rw [same, runAfter, taken]
    rfl

end Sys2Proof.Machine
end

section
/-! SUPPORT. RESTART and CLEAR_TALLY (R75, R148): the lease holder's requests check by check, and anyone else's (R176). -/

namespace Sys2Proof.Machine

/-- With the lease FREE or another session's, a port does not hold it (R132). -/
theorem State.holdsLease_eq_false {s : State} {p : Port} (h : ∀ t, s.lease = some t → t.holder ≠ p) : s.holdsLease p = false := by
  cases hl : s.lease with
  | none => simp only [State.holdsLease, hl]
  | some t => simp only [State.holdsLease, hl, beq_eq_false_iff_ne.mpr (h t hl)]

section
variable {s : State} {t : Tenure}

theorem reqRestart_otherGeneration (hl : s.lease = some t) {generation : W16} (h : generation ≠ s.config.generation) :
    reqRestart t.holder generation s = (s, Reply.refuse .badValue) := by
  rw [reqRestart, State.withLease_holder hl, if_pos h]

theorem reqRestart_carriedOut (hl : s.lease = some t) :
    reqRestart t.holder s.config.generation s =
      ({ s with config := { s.config with restartDue := some (s.front.tick + 50) } },
        { status := .ok, payload := [], restartOk := true }) := by
  rw [reqRestart, State.withLease_holder hl, if_neg fun h => h rfl]
  rfl

theorem reqClearTally_badMask (hl : s.lease = some t) {mask : Byte} (h : mask = 0 ∨ mask &&& 0xC0 ≠ 0) :
    reqClearTally t.holder mask s = (s, Reply.refuse .badValue) := by
  rw [reqClearTally, State.withLease_holder hl, if_pos h]

/-- A state with the tallies that a mask names zeroed. -/
def State.withTalliesCleared (s : State) (mask : Byte) : State :=
  { s with det := { s.det with dets := s.det.dets.mapWith fun d x => if mask.getLsbD d.number then x.clearTally else x } }

theorem reqClearTally_stored (hl : s.lease = some t) {mask : Byte} (h0 : mask ≠ 0) (h : mask &&& 0xC0 = 0)
    (hw : s.journal.waiting = []) (ht : s.journal.tally.isEmpty = true) (room : s.journal.entries.length < journalCapacity) :
    reqClearTally t.holder mask s =
      ({ s.withTalliesCleared mask with
          journal := s.journal.push s.front.tick s.front.hc (.tallyCleared mask t.holder) },
        Reply.ok (be32 s.journal.nextSeq)) := by
  have good : ¬ (mask = 0 ∨ mask &&& 0xC0 ≠ 0) := not_or.mpr ⟨h0, not_not.mpr h⟩
  have stored := State.appendNow_alone (s := s.withTalliesCleared mask) hw ht room (.tallyCleared mask t.holder)
  rw [reqClearTally, State.withLease_holder hl, if_neg good]
  exact congrArg (fun out : State × Option W32 => (out.1, Reply.ok (be32 (seqOrZero out.2)))) stored

end

/-- Settles O42: the checks in the order of R176. -/
theorem restartAndClearTally : Obligations.RestartAndClearTally := by
  intro s p tag x ready hx refused
  refine ⟨fun t hl hp => ?holder, fun h => ?other⟩
  case holder =>
    subst hp
    have hbase : (s.setSession t.holder (some (s.touched t.holder x))).lease = some t := hl
    refine ⟨?_, fun generation h => ?_, fun mask h0 h hw ht room => ?_, fun mask h => ?_⟩
    · exact exec_replied (r := .restart s.config.generation) ready hx rfl (reqRestart_carriedOut hbase)
    · exact exec_onlyReplied (r := .restart generation) ready hx rfl (reqRestart_otherGeneration hbase h)
    · exact exec_replied (r := .clearTally mask) ready hx rfl (reqClearTally_stored hbase h0 h hw ht room)
    · exact exec_onlyReplied (r := .clearTally mask) ready hx rfl (reqClearTally_badMask hbase h)
  case other =>
    have hfree : (s.setSession p (some (s.touched p x))).holdsLease p = false := State.holdsLease_eq_false h
    refine ⟨fun generation => ?_, fun mask => ?_⟩
    · exact exec_onlyReplied (r := .restart generation) ready hx rfl (State.withLease_other hfree _)
    · exact exec_onlyReplied (r := .clearTally mask) ready hx rfl (State.withLease_other hfree _)

end Sys2Proof.Machine
end

section
/-! SUPPORT. Frames in the Capture Store and the cross-trigger lines (R86, R92, R94 to R96): a frame by the store's mode, the frame that fills a
part with a FREE slot and without one, and the edges of XTRIG_IN. -/

namespace Sys2Proof.Machine

/-- A command of the running part, by what its effect comes to. -/
theorem State.whenRunning_eq {s t : State} {f : State → State} (hrun : s.pins.resetLow = false) (h : f s = t) :
    s.whenRunning f = .next t.drive := h ▸ State.whenRunning_of_running hrun f

theorem exec_captureFrame {s t : State} {f : StampedFrame} {rest : List CapEvent} (hrun : s.pins.resetLow = false)
    (hfirst : firstFrame s.store.inbox = some (f, rest)) (h : (s.setCapInbox rest).captureFrame f = t) :
    exec .captureFrame s = .next t.drive := by
  show execCaptureFrame s = _
  refine State.whenRunning_eq hrun ?_
  simp only [hfirst, h]

/-! ### A frame by the mode that it finds (R86) -/

/-- The ring holds 1024 frames; the oldest leaves for one more. -/
theorem pushRing_eq {ring : List Frame} (h : ring.length ≤ 1024) (f : Frame) :
    pushRing ring f = (if ring.length < 1024 then ring else ring.drop 1) ++ [f] := by
  by_cases hlt : ring.length < 1024
  · have none_leaves : ring.length + 1 - slotFrames = 0 := Nat.sub_eq_zero_of_le hlt
    rw [pushRing, none_leaves, if_pos hlt, List.drop_zero]
  · have one_leaves : ring.length + 1 - slotFrames = 1 := by rw [slotFrames]; omega
    rw [pushRing, one_leaves, if_neg hlt, List.drop_append_of_le_length (by omega)]

section
variable {s : State} (f : StampedFrame)

theorem State.captureFrame_live {slot : SlotId} {ring : List Frame} (h : s.store.mode = .live slot ring) :
    s.captureFrame f = s.setMode (.live slot (pushRing ring f.frame)) := by simp only [State.captureFrame, h]

/-- A frame after which the part still lacks some. -/
theorem State.captureFrame_records {c : Capture} (h : s.store.mode = .post c)
    (hlen : c.frames.length + 1 < c.slots.length * 1024) :
    s.captureFrame f = s.setMode (.post { c with frames := c.frames ++ [f.frame] }) := by
  have lacks : Capture.toRecord { c with frames := c.frames ++ [f.frame] } ≠ 0 := by
    rw [Capture.toRecord, List.length_append, List.length_singleton]
    exact Nat.sub_ne_zero_of_lt hlen
  simp only [State.captureFrame, h, lacks, if_false]

/-- A frame that the part lacked alone. -/
theorem State.captureFrame_fills {c : Capture} (h : s.store.mode = .post c)
    (hlen : c.frames.length + 1 = c.slots.length * 1024) :
    s.captureFrame f = s.partFull { c with frames := c.frames ++ [f.frame] } f.tick f.hc := by
  have full : Capture.toRecord { c with frames := c.frames ++ [f.frame] } = 0 := by
    rw [Capture.toRecord, List.length_append, List.length_singleton]
    exact Nat.sub_eq_zero_of_le hlen.ge
  simp only [State.captureFrame, h, full, if_true]

theorem State.captureFrame_dropped (h : s.store.mode = .disarmed ∨ s.store.mode = .starved) : s.captureFrame f = s := by
  obtain h | h := h <;> simp only [State.captureFrame, h]

end

/-- Settles O28: one frame in each mode. -/
theorem storeTakesFrame : Obligations.StoreTakesFrame := by
  intro s f rest hrun hfirst
  have run : ∀ {t : State}, (s.setCapInbox rest).captureFrame f = t → exec .captureFrame s = .next t.drive :=
    exec_captureFrame hrun hfirst
  refine ⟨fun slot ring hm hlen => ?_, fun c hm hlen => ?_, fun hm => ?_⟩
  · rw [← pushRing_eq hlen]
    exact run (State.captureFrame_live (s := s.setCapInbox rest) f hm)
  · exact run (State.captureFrame_records (s := s.setCapInbox rest) f hm hlen)
  · exact run (State.captureFrame_dropped (s := s.setCapInbox rest) f hm)

/-! ### The frame that fills the part (R94, R95) -/

/-- A FREE slot is taken, the lowest. -/
theorem State.takeSlot_free {s : State} {busy : List SlotId} {i : SlotId}
    (h : i ∉ s.store.sealedCaptures.flatMap Capture.slots ++ busy)
    (hlow : ∀ k < i, k ∈ s.store.sealedCaptures.flatMap Capture.slots ++ busy) (tick hc : W32) :
    s.takeSlot busy tick hc = (s, some i) := by
  simp only [State.takeSlot, lowestFree_eq h hlow]

/-- A completed capture as it is sealed (R95). -/
def State.sealing (s : State) (c : Capture) : Capture := { c with continueFlag := false, holders := s.captureHolders }

/-- A state with a completed capture last in the seal order and its CAPTURE_SEALED handed to the journal (R95). -/
def State.withSealed (s : State) (c : Capture) (tick hc : W32) : State :=
  { s with
    store := { s.store with sealedCaptures := s.store.sealedCaptures ++ [s.sealing c] }
    journal := { s.journal with waiting := s.journal.waiting ++ [⟨.captureStore, tick, hc, c.sealedEntry⟩] } }

/-- A capture with its next part in a slot (R94). -/
def Capture.chainedInto (c : Capture) (i : SlotId) : Capture :=
  { c with slots := c.slots ++ [i], continueFlag := false, flags := { c.flags with chained := true } }

/-- A capture that completes though it was to continue is cut (R94). -/
def Capture.cutIfContinuing (c : Capture) : Capture :=
  { c with flags := if c.continueFlag then { c.flags with chainCut := true } else c.flags }

section
variable {s : State} (c : Capture) (tick hc : W32)

theorem State.completeCapture_armed (h : s.store.s2.armed = 1) :
    s.completeCapture c tick hc = (s.withSealed c tick hc).armStore tick hc := if_pos h

theorem State.completeCapture_disarmed (h : s.store.s2.armed ≠ 1) :
    s.completeCapture c tick hc = (s.withSealed c tick hc).setMode .disarmed := if_neg h

variable {c}

theorem State.partFull_chains {t : State} {i : SlotId} (hcont : c.continueFlag = true) (harmed : s.store.s2.armed = 1)
    (hslot : s.takeSlot c.slots tick hc = (t, some i)) :
    s.partFull c tick hc = t.setMode (.post (c.chainedInto i)) := by
  rw [State.partFull, if_pos ⟨hcont, harmed⟩, hslot]
  rfl

/-- A capture that is not to continue, or finds no slot to continue in, completes. -/
theorem State.partFull_completes (harmed : s.store.s2.armed = 1)
    (h : c.continueFlag = false ∨ s.takeSlot c.slots tick hc = (s, none)) :
    s.partFull c tick hc = s.completeCapture c.cutIfContinuing tick hc := by
  cases hcont : c.continueFlag with
  | false =>
    have notCut : c.cutIfContinuing = c := by
      rw [Capture.cutIfContinuing, if_neg (by rw [hcont]; exact Bool.false_ne_true)]
    rw [State.partFull, if_neg fun k => absurd (hcont.symm.trans k.1) Bool.false_ne_true, notCut]
  | true =>
    have hslot := h.resolve_left fun k => absurd (hcont.symm.trans k) Bool.true_eq_false.mp
    rw [State.partFull, if_pos ⟨hcont, harmed⟩, hslot, Capture.cutIfContinuing, if_pos hcont]

theorem State.partFull_disarmed (h : s.store.s2.armed ≠ 1) :
    s.partFull c tick hc = (s.withSealed c tick hc).setMode .disarmed := by
  rw [State.partFull, if_neg fun k => h k.2, State.completeCapture_disarmed c tick hc h]

end

/-- Settles O29: the part of the store's capture is full; it chains, or it completes and the store arms again or is disarmed. -/
theorem partFull : Obligations.PartFull := by
  intro s f rest c hrun hfirst hm hlen used frames full whole order completed
  let u := s.setCapInbox rest
  let filled : Capture := { c with frames := frames }
  have run : ∀ {t : State}, u.partFull filled f.tick f.hc = t → exec .captureFrame s = .next t.drive := fun h =>
    exec_captureFrame hrun hfirst ((State.captureFrame_fills (s := u) f hm hlen).trans h)
  have completes : s.store.s2.armed = 1 → (c.continueFlag = false ∨ u.takeSlot filled.slots f.tick f.hc = (u, none)) →
      u.partFull filled f.tick f.hc = completed.armStore f.tick f.hc := fun harmed h =>
    (State.partFull_completes (s := u) (c := filled) _ _ harmed h).trans (State.completeCapture_armed (s := u) _ _ _ harmed)
  -- once it is sealed its slots count among the sealed ones
  have slots : order.flatMap Capture.slots = used := by
    simp only [order, used, List.flatMap_append, List.flatMap_singleton]
    rfl
  have sealedFull : full → ∀ k : SlotId, k ∈ order.flatMap Capture.slots := fun h k => slots ▸ h k
  refine ⟨fun i hcont harmed hi hlow => ?_, fun i hcont harmed hi hlow => ?_, fun harmed => ?_,
    fun v i hcont harmed hfull hr hi => ?_, fun v i harmed hfull hcut hr hi => ?_, fun harmed hfull hh => ?_⟩
  · exact run (State.partFull_chains (s := u) (c := filled) _ _ hcont harmed (State.takeSlot_free (s := u) hi hlow _ _))
  · have flags : whole.flags = c.flags := if_neg (by rw [hcont]; exact Bool.false_ne_true)
    have arms := (completes harmed (.inl hcont)).trans (State.armStore_free (s := completed) (i := i)
      (fun k => hi (slots ▸ k)) (fun k hk => slots ▸ hlow k hk) _ _)
    exact run (flags ▸ arms)
  · have unarmed : s.store.s2.armed ≠ 1 := by rw [harmed]; decide
    exact run (State.partFull_disarmed (s := u) (c := filled) _ _ unarmed)
  · exact run (State.partFull_chains (s := u) (c := filled) _ _ hcont harmed
      (State.takeSlot_reclaims (s := u) _ _ hfull hr hi))
  · have noSlot := hcut.imp_right fun hh => State.takeSlot_none (s := u) (busy := filled.slots) f.tick f.hc hfull hh
    exact run ((completes harmed noSlot).trans (State.armStore_reclaims (s := completed) (sealedFull hfull) hr hi _ _))
  · have noSlot := State.takeSlot_none (s := u) (busy := filled.slots) f.tick f.hc hfull
      fun b hb => hh b (List.mem_append_left _ hb)
    exact run ((completes harmed (.inr noSlot)).trans (State.armStore_starves (s := completed) (sealedFull hfull) hh _ _))

/-! ### The cross-trigger lines (R92) -/

theorem matchesPolarity_iff (s2 : CapCfg) (high : Bool) :
    matchesPolarity s2 high = true ↔ s2.xtrigIn = if high then 1 else 2 := by
  cases high <;> simp [matchesPolarity]

theorem State.senseXtrig_same {s : State} {high : Bool} (h : s.store.xtrigLevel = high) : s.senseXtrig high = s := if_pos h

/-- An edge moves the kept level, and one of the configured polarity raises a trigger. -/
theorem State.senseXtrig_edge {s : State} {high : Bool} (h : s.store.xtrigLevel ≠ high) :
    s.senseXtrig high = { s with store := { s.store with
      xtrigLevel := high
      inbox := s.store.inbox ++
        if s.store.s2.xtrigIn = (if high then 1 else 2) then [CapEvent.trigger .xtrigIn s.front.tick s.front.hc] else [] } } := by
  have polarity := matchesPolarity_iff s.store.s2 high
  simp only [State.senseXtrig, if_neg h, ← polarity]
  split
  · rfl
  · rw [List.append_nil]

/-- Settles O32: an edge, no edge, and the end of a pulse. -/
theorem crossTrigger : Obligations.CrossTrigger := by
  refine ⟨fun s high hrun h => ?_, fun s hrun => ?_, fun s due hrun hout hdue => ?_⟩
  · let pin : State := { s with pins := { s.pins with xtrigInHigh := high } }
    show execXtrigInEdge high s = _
    exact State.whenRunning_eq (s := pin) (f := (State.senseXtrig · high)) hrun (State.senseXtrig_edge (s := pin) h)
  · let pin : State := { s with pins := { s.pins with xtrigInHigh := s.store.xtrigLevel } }
    show execXtrigInEdge s.store.xtrigLevel s = _
    exact State.whenRunning_eq (s := pin) (f := (State.senseXtrig · s.store.xtrigLevel)) hrun
      (State.senseXtrig_same (s := pin) rfl)
  · have due_reached : reached s.nowTick due = true := hdue
    show execXtrigOutPulseEnd s = _
    refine State.whenRunning_eq hrun ?_
    simp only [hout, due_reached, if_true]

end Sys2Proof.Machine
end

section
/-! SUPPORT. The law of the slots in the Capture Store (R83, R84, R97): slots that are apart, what taking one, sealing and reclaiming make of them,
and that every operation of the store keeps the law. -/

namespace Sys2Proof.Machine

/-! ### Slots that are apart -/

/-- The slots of some captures and some others in use are all different, and each capture has one. -/
structure SlotsApart (sealedCaptures : List Capture) (busy : List SlotId) : Prop where
  nodup : (sealedCaptures.flatMap Capture.slots ++ busy).Nodup
  nonempty : ∀ c ∈ sealedCaptures, c.slots ≠ []

theorem CaptureStore.slotLaw_iff (st : CaptureStore) : st.SlotLaw ↔ SlotsApart st.sealedCaptures st.mode.slots
    ∧ (∀ c, st.mode = .post c → c.slots ≠ [])
    ∧ (st.mode = .starved → ∀ k : SlotId, k ∈ st.sealedCaptures.flatMap Capture.slots) := by
  have table : (∀ c ∈ st.table, c.slots ≠ []) ↔
      (∀ c ∈ st.sealedCaptures, c.slots ≠ []) ∧ ∀ c, st.mode = .post c → c.slots ≠ [] := by
    simp only [CaptureStore.table, List.forall_mem_append, CaptureStore.mem_recording]
  rw [CaptureStore.SlotLaw, table]
  exact ⟨fun ⟨h, ⟨hs, hp⟩, hf⟩ => ⟨⟨h, hs⟩, hp, hf⟩, fun ⟨⟨h, hs⟩, hp, hf⟩ => ⟨h, ⟨hs, hp⟩, hf⟩⟩

theorem mem_of_lowestOf {slots : List SlotId} {i : SlotId} (h : lowestOf slots = some i) : i ∈ slots :=
  List.contains_iff_mem.mp (List.find?_some h)

theorem lowestOf_isSome {slots : List SlotId} (h : slots ≠ []) : ∃ i, lowestOf slots = some i := by
  obtain ⟨k, hk⟩ := List.exists_mem_of_ne_nil slots h
  refine Option.isSome_iff_exists.mp (List.find?_isSome.mpr ⟨k, ?_, List.contains_iff_mem.mpr hk⟩)
  clear hk; revert k; decide

theorem not_mem_of_lowestFree {used : List SlotId} {i : SlotId} (h : lowestFree used = some i) : i ∉ used := by
  simpa using List.find?_some h

theorem mem_of_lowestFree_none {used : List SlotId} (h : lowestFree used = none) (k : SlotId) : k ∈ used := by
  have hk : k ∈ allSlots := by revert k; decide
  simpa using List.find?_eq_none.mp h k hk

theorem mem_of_reclaimChoice {l : List Capture} {token : Option Port} {c : Capture} (h : reclaimChoice l token = some c) : c ∈ l := by
  unfold reclaimChoice at h
  split at h
  · rename_i hunheld
    cases h
    exact List.mem_of_find?_eq_some hunheld
  · exact List.mem_of_find?_eq_some h

namespace SlotsApart

variable {l : List Capture} {busy : List SlotId}

theorem alone (h : SlotsApart l busy) : SlotsApart l [] :=
  ⟨by rw [List.append_nil]; exact h.nodup.of_append_left, h.nonempty⟩

/-- A slot that is in no other use. -/
theorem take (h : SlotsApart l busy) {i : SlotId} (hi : i ∉ l.flatMap Capture.slots ++ busy) : SlotsApart l (busy ++ [i]) :=
  ⟨by rw [← List.append_assoc]; exact List.nodup_append_comm.mp (List.nodup_cons.mpr ⟨hi, h.nodup⟩), h.nonempty⟩

/-- The slots of a capture that is sealed last. -/
theorem sealLast {c : Capture} (h : SlotsApart l c.slots) (hc : c.slots ≠ []) : SlotsApart (l ++ [c]) [] := by
  refine ⟨?_, List.forall_mem_append.mpr ⟨h.nonempty, List.forall_mem_singleton.mpr hc⟩⟩
  rw [List.append_nil, List.flatMap_append, List.flatMap_singleton]
  exact h.nodup

theorem mapSame (h : SlotsApart l busy) {f : Capture → Capture} (hf : ∀ c, (f c).slots = c.slots) : SlotsApart (l.map f) busy := by
  refine ⟨?_, List.forall_mem_map.mpr fun c hc => hf c ▸ h.nonempty c hc⟩
  rw [List.flatMap_map]
  simp only [hf]
  exact h.nodup

/-- A slot of a capture that leaves the seal order (R96). -/
theorem reclaim (h : SlotsApart l busy) {c : Capture} (hc : c ∈ l) {i : SlotId} (hi : i ∈ c.slots) :
    SlotsApart (l.filter fun x => x.id != c.id) (busy ++ [i]) := by
  obtain ⟨hl, -, apart⟩ := List.nodup_append.mp h.nodup
  have : Std.Symm (Function.onFun List.Disjoint Capture.slots) := ⟨fun _ _ k => List.Disjoint.symm k⟩
  have others : ∀ d ∈ l, d ≠ c → i ∉ d.slots := fun d hd hne hm =>
    (List.nodup_flatMap.mp hl).2.forall hd hc hne hm hi
  have rest : SlotsApart (l.filter fun x => x.id != c.id) busy :=
    ⟨h.nodup.sublist ((List.filter_sublist.flatMap _).append_right busy), fun d hd => h.nonempty d (List.mem_of_mem_filter hd)⟩
  refine rest.take fun hm => ?_
  rcases List.mem_append.mp hm with hm | hm
  · obtain ⟨d, hd, hid⟩ := List.mem_flatMap.mp hm
    obtain ⟨hd, hne⟩ := List.mem_filter.mp hd
    exact others d hd (fun e => by simp [e] at hne) hid
  · exact apart i (List.mem_flatMap.mpr ⟨c, hc, hi⟩) i hm rfl

end SlotsApart

/-! ### Taking a slot (R96) -/

/-- A slot is taken that is in no other use, or every slot is in use and nothing is taken. -/
theorem State.takeSlot_apart {s : State} {busy : List SlotId} (h : SlotsApart s.store.sealedCaptures busy) (tick hc : W32) :
    (∃ t i, s.takeSlot busy tick hc = (t, some i) ∧ SlotsApart t.store.sealedCaptures (busy ++ [i]))
    ∨ (s.takeSlot busy tick hc = (s, none) ∧ ∀ k : SlotId, k ∈ s.store.sealedCaptures.flatMap Capture.slots ++ busy) := by
  rcases s.takeSlot_cases busy tick hc with ⟨i, hi, e⟩ | ⟨hfull, ⟨-, e⟩ | ⟨c, hchoice, e⟩⟩
  · exact .inl ⟨s, i, e, h.take (not_mem_of_lowestFree hi)⟩
  · exact .inr ⟨e, mem_of_lowestFree_none hfull⟩
  · have hc := mem_of_reclaimChoice hchoice
    obtain ⟨i, hi⟩ := lowestOf_isSome (h.nonempty c hc)
    exact .inl ⟨_, i, hi ▸ e, h.reclaim hc (mem_of_lowestOf hi)⟩

section
variable {s : State}

/-- A mode other than STARVED whose slots are in no other use. -/
theorem State.setMode_slotLaw {m : StoreMode} (h : SlotsApart s.store.sealedCaptures m.slots) (hp : ∀ c, m = .post c → c.slots ≠ [])
    (hs : m ≠ .starved) : (s.setMode m).store.SlotLaw :=
  (CaptureStore.slotLaw_iff _).mpr ⟨h, hp, fun e => absurd e hs⟩

theorem State.armStore_slotLaw (h : SlotsApart s.store.sealedCaptures []) (tick hc : W32) : (s.armStore tick hc).store.SlotLaw := by
  rcases State.takeSlot_apart h tick hc with ⟨t, i, e, ht⟩ | ⟨e, full⟩
  · simp only [State.armStore, e]
    exact State.setMode_slotLaw ht (fun _ k => StoreMode.noConfusion k) StoreMode.noConfusion
  · simp only [State.armStore, e]
    rw [List.append_nil] at full
    exact (CaptureStore.slotLaw_iff _).mpr ⟨h, fun _ k => StoreMode.noConfusion k, fun _ => full⟩

theorem State.disarm_slotLaw (h : SlotsApart s.store.sealedCaptures []) : (s.setMode .disarmed).store.SlotLaw :=
  State.setMode_slotLaw h (fun _ k => StoreMode.noConfusion k) StoreMode.noConfusion

theorem State.completeCapture_slotLaw {c : Capture} (h : SlotsApart s.store.sealedCaptures c.slots) (hc : c.slots ≠ [])
    (tick hcount : W32) : (s.completeCapture c tick hcount).store.SlotLaw := by
  have sealedApart : SlotsApart (s.withSealed c tick hcount).store.sealedCaptures [] := SlotsApart.sealLast (c := s.sealing c) h hc
  by_cases harmed : s.store.s2.armed = 1
  · rw [State.completeCapture_armed c _ _ harmed]
    exact State.armStore_slotLaw sealedApart _ _
  · rw [State.completeCapture_disarmed c _ _ harmed]
    exact State.disarm_slotLaw sealedApart

theorem State.partFull_slotLaw {c : Capture} (h : SlotsApart s.store.sealedCaptures c.slots) (hc : c.slots ≠ [])
    (tick hcount : W32) : (s.partFull c tick hcount).store.SlotLaw := by
  unfold State.partFull
  split
  · rcases State.takeSlot_apart h tick hcount with ⟨t, i, e, ht⟩ | ⟨e, -⟩
    · simp only [e]
      refine State.setMode_slotLaw ht (fun _ k => ?_) StoreMode.noConfusion
      cases k
      exact List.append_ne_nil_of_right_ne_nil _ (List.cons_ne_nil _ _)
    · simp only [e]
      exact State.completeCapture_slotLaw (c := { c with flags := { c.flags with chainCut := true } }) h hc _ _
  · exact State.completeCapture_slotLaw h hc _ _

/-! ### The store's operations -/

theorem CaptureStore.SlotLaw.apart {st : CaptureStore} (l : st.SlotLaw) : SlotsApart st.sealedCaptures st.mode.slots :=
  ((CaptureStore.slotLaw_iff st).mp l).1

/-- The recording capture's slots are in no other use, and it has one. -/
theorem CaptureStore.SlotLaw.recording {st : CaptureStore} (l : st.SlotLaw) {c : Capture} (h : st.mode = .post c) :
    SlotsApart st.sealedCaptures c.slots ∧ c.slots ≠ [] := by
  obtain ⟨apart, hp, -⟩ := (CaptureStore.slotLaw_iff st).mp l
  rw [h] at apart
  exact ⟨apart, hp c h⟩

/-- The LIVE slot is in no other use. -/
theorem CaptureStore.SlotLaw.live {st : CaptureStore} (l : st.SlotLaw) {slot : SlotId} {ring : List Frame}
    (h : st.mode = .live slot ring) : SlotsApart st.sealedCaptures [slot] := by
  have apart := l.apart
  rwa [h] at apart

/-- Another recording capture, in the slots of the first. -/
theorem State.setPost_slotLaw (l : s.store.SlotLaw) {c d : Capture} (h : s.store.mode = .post c) (hd : d.slots = c.slots) :
    (s.setMode (.post d)).store.SlotLaw := by
  obtain ⟨apart, hc⟩ := l.recording h
  rw [← hd] at apart hc
  exact State.setMode_slotLaw apart (fun _ k => by cases k; exact hc) StoreMode.noConfusion

theorem State.captureFrame_slotLaw (l : s.store.SlotLaw) (f : StampedFrame) : (s.captureFrame f).store.SlotLaw := by
  unfold State.captureFrame
  split
  · rename_i slot ring hm
    exact State.setMode_slotLaw (l.live hm) (fun _ k => StoreMode.noConfusion k) StoreMode.noConfusion
  · rename_i c hm
    obtain ⟨apart, hc⟩ := l.recording hm
    simp only []
    split
    · exact State.partFull_slotLaw (c := { c with frames := c.frames ++ [f.frame] }) apart hc _ _
    · exact State.setPost_slotLaw l hm rfl
  · exact l
  · exact l

/-- A capture starts in the slot of the ring (R88). -/
theorem State.startCapture_slotLaw (l : s.store.SlotLaw) {slot : SlotId} {ring : List Frame} (h : s.store.mode = .live slot ring)
    (source : TrigSource) (tick hc : W32) : (s.startCapture slot ring source tick hc).store.SlotLaw :=
  (CaptureStore.slotLaw_iff _).mpr
    ⟨l.live h, fun _ k => by cases k; exact List.cons_ne_nil _ _, fun k => StoreMode.noConfusion k⟩

theorem Capture.joined_slots (c : Capture) (source : TrigSource) (hc : W32) : (c.joined source hc).slots = c.slots := by
  simp only [Capture.joined]
  split <;> split <;> rfl

theorem State.takeTrigger_slotLaw (l : s.store.SlotLaw) (source : TrigSource) (tick hc : W32) :
    (s.takeTrigger source tick hc).store.SlotLaw := by
  unfold State.takeTrigger
  split
  · exact State.startCapture_slotLaw l ‹_› _ _ _
  · exact State.setPost_slotLaw l ‹_› (Capture.joined_slots _ _ _)
  · exact l
  · exact l

theorem State.retryStarved_slotLaw (l : s.store.SlotLaw) : s.retryStarved.store.SlotLaw := by
  rcases s.retryStarved_cases with ⟨-, e⟩ | ⟨-, e⟩ <;> rw [e]
  · exact State.armStore_slotLaw l.apart.alone _ _
  · exact l

theorem State.takeS2_slotLaw (l : s.store.SlotLaw) (new : CapCfg) : (s.takeS2 new).store.SlotLaw := by
  have alone : SlotsApart (s.withS2 new).store.sealedCaptures [] := l.apart.alone
  simp only [State.takeS2]
  split
  · split
    · exact State.disarm_slotLaw alone
    · exact State.disarm_slotLaw alone
    · exact l
    · exact l
  · split
    · split
      · exact State.armStore_slotLaw alone _ _
      · exact l
    · split
      · exact l
      · exact State.retryStarved_slotLaw (s := s.withS2 new) l

/-- Sealed captures changed in other things than their slots. -/
theorem State.mapSealed_slotLaw (l : s.store.SlotLaw) {f : Capture → Capture} (hf : ∀ c, (f c).slots = c.slots) :
    State.store { s with store := { s.store with sealedCaptures := s.store.sealedCaptures.map f } } |>.SlotLaw := by
  obtain ⟨apart, hp, full⟩ := (CaptureStore.slotLaw_iff _).mp l
  refine (CaptureStore.slotLaw_iff _).mpr ⟨apart.mapSame hf, hp, fun hm k => ?_⟩
  show k ∈ (s.store.sealedCaptures.map f).flatMap Capture.slots
  rw [List.flatMap_map]
  simp only [hf]
  exact full hm k

theorem State.dropFromCaptures_slotLaw (l : s.store.SlotLaw) (p : Port) : (s.dropFromCaptures p).store.SlotLaw :=
  State.retryStarved_slotLaw (State.mapSealed_slotLaw l (f := Capture.dropHolder p) fun _ => rfl)

theorem reqReleaseCapture_slotLaw (l : s.store.SlotLaw) (p : Port) (id : W16) : (reqReleaseCapture p id s).1.store.SlotLaw := by
  have released : (s.withReleased p id).store.SlotLaw := State.mapSealed_slotLaw l fun c => by split <;> rfl
  unfold reqReleaseCapture
  split
  · exact l
  · split
    · exact l
    · split
      · exact l
      · simp only []
        split
        · exact State.retryStarved_slotLaw released
        · exact released

end

theorem State.IsReset.slotLaw {t : State} (h : t.IsReset) : t.store.SlotLaw := by
  obtain ⟨_, _, _, _, _, _, _, _, rfl⟩ := h
  exact (CaptureStore.slotLaw_iff _).mpr ⟨⟨List.nodup_singleton _, fun _ k => (by cases k)⟩, fun _ k => StoreMode.noConfusion k,
    fun k => StoreMode.noConfusion k⟩

theorem State.restartNow_slotLaw (s : State) : s.restartNow.store.SlotLaw :=
  (s.restarted_isReset .request s.pins).slotLaw

end Sys2Proof.Machine
end

section
/-! SUPPORT. What leaves the captures and the mode of the Capture Store alone: the work of the other blocks and of the ports. -/

namespace Sys2Proof.Machine

/-- All that the law of the slots reads. -/
def State.captures (s : State) : List Capture × StoreMode := (s.store.sealedCaptures, s.store.mode)

theorem State.slotLaw_of_captures {s t : State} (h : t.captures = s.captures) (l : s.store.SlotLaw) : t.store.SlotLaw := by
  obtain ⟨hsealed, hmode⟩ : t.store.sealedCaptures = s.store.sealedCaptures ∧ t.store.mode = s.store.mode :=
    ⟨congrArg Prod.fst h, congrArg Prod.snd h⟩
  rw [CaptureStore.slotLaw_iff, hsealed, hmode]
  exact (CaptureStore.slotLaw_iff _).mp l

theorem State.captures_of_store {s t : State} (h : t.store = s.store) : t.captures = s.captures := by
  rw [State.captures, h]; rfl

/-- Work done once for each of several things. -/
theorem foldl_captures {α : Type} {f : State → α → State} (h : ∀ s a, (f s a).captures = s.captures) (l : List α) (s : State) :
    (l.foldl f s).captures = s.captures := by
  induction l generalizing s with
  | nil => rfl
  | cons a l ih => exact (ih (f s a)).trans (h s a)

/-- Work done or left. -/
theorem ite_captures {s t : State} {c : Prop} [Decidable c] (h : t.captures = s.captures) :
    (if c then t else s).captures = s.captures := by
  split
  · exact h
  · rfl

theorem State.appendNow_captures (s : State) (body : EntryBody) : (s.appendNow body).1.captures = s.captures :=
  State.captures_of_store (s.appendNow_store body)

theorem State.takeAppend_captures (s : State) (tick hc : W32) (body : EntryBody) :
    (s.takeAppend tick hc body).1.captures = s.captures := State.captures_of_store (s.takeAppend_store tick hc body)

theorem State.answer_captures (s : State) (p : Port) (r : Response) : (s.answer p r).captures = s.captures :=
  State.captures_of_store (s.answer_store p r)

/-! ### The Front End and the Detector Bank -/

theorem State.closeHalfCycle_captures (s : State) (raw : Frame) (polarity : Polarity) (synthetic : Bool) :
    (s.closeHalfCycle raw polarity synthetic).captures = s.captures := by
  simp only [State.closeHalfCycle, State.handLineEvent_eq]
  rfl

theorem State.takeFrame_captures (s : State) (raw : Frame) : (s.takeFrame raw).captures = s.captures := by
  rw [State.takeFrame_eq]
  show State.captures (if _ then _ else _) = _
  split
  · exact State.closeHalfCycle_captures _ _ _ _
  · split
    · exact State.closeHalfCycle_captures _ _ _ _
    · rfl

theorem State.openEpisode_captures (s : State) (d : DetId) (x : Detector) (close : HandedClose) :
    (s.openEpisode d x close).captures = s.captures := by
  simp only [State.openEpisode]
  split <;> rfl

theorem State.closeEpisode_captures (s : State) (d : DetId) (x : Detector) (close : HandedClose) :
    (s.closeEpisode d x close).captures = s.captures := by
  simp only [State.closeEpisode]
  split <;> rfl

theorem State.judgeDetector_captures (close : HandedClose) (s : State) (d : DetId) :
    (s.judgeDetector close d).captures = s.captures := by
  unfold State.judgeDetector
  split
  · rfl
  · exact s.openEpisode_captures _ _ _
  · exact s.closeEpisode_captures _ _ _

theorem State.updateDetector_captures (close : HandedClose) (s : State) (d : DetId) :
    (s.updateDetector close d).captures = s.captures := by
  simp only [State.updateDetector]
  split
  · rfl
  · split <;> rfl

theorem State.takeDetectorClose_captures (s : State) (close : HandedClose) : (s.takeDetectorClose close).captures = s.captures :=
  (foldl_captures (State.judgeDetector_captures close) _ _).trans (foldl_captures (State.updateDetector_captures close) _ s)

theorem State.senseXtrig_captures (s : State) (high : Bool) : (s.senseXtrig high).captures = s.captures := by
  simp only [State.senseXtrig]
  split
  · rfl
  · exact ite_captures rfl

theorem State.drawTrigger_captures {s t : State} {g : WaitingTrigger} {rest : List CapEvent} (h : s.drawTrigger = some (g, rest, t)) :
    t.captures = s.captures := by
  unfold State.drawTrigger at h
  split at h <;> cases h <;> rfl

/-! ### The Energy Block -/

theorem State.feedEngine_captures (s : State) (e : PulseId) (quanta : Nat) : (s.feedEngine e quanta).captures = s.captures := by
  simp only [State.feedEngine]
  split
  · exact ite_captures rfl
  · exact ite_captures rfl

theorem State.feedBound_captures (s : State) (a : AccId) (quanta : Nat) : (s.feedBound a quanta).captures = s.captures :=
  foldl_captures (fun s e => ite_captures (s.feedEngine_captures e quanta)) _ s

theorem State.countHalfCycle_captures (s : State) (a : AccId) (x : Summary) : (s.countHalfCycle a x).captures = s.captures := by
  simp only [State.countHalfCycle]
  split
  · rfl
  · exact State.feedBound_captures _ _ _

theorem State.workAccumulator_captures (close : HandedClose) (s : State) (a : AccId) :
    (s.workAccumulator close a).captures = s.captures := by
  simp only [State.workAccumulator]
  split
  · rfl
  · split
    · exact State.countHalfCycle_captures _ _ _
    · split
      · exact State.countHalfCycle_captures _ _ _
      · rfl
  · split
    · rfl
    · exact State.countHalfCycle_captures _ _ _

theorem State.completeSnapshot_captures (s : State) (close : HandedClose) : (s.completeSnapshot close).captures = s.captures := by
  unfold State.completeSnapshot
  split <;> rfl

theorem State.takeEnergyClose_captures (s : State) (close : HandedClose) : (s.takeEnergyClose close).captures = s.captures :=
  (State.completeSnapshot_captures _ close).trans (foldl_captures (State.workAccumulator_captures close) _ s)

theorem State.takeS3_captures (s : State) (new : EnergyCfg) : (s.takeS3 new).captures = s.captures :=
  foldl_captures (fun t a => ite_captures (t := t.zeroAccumulator a) rfl) allAccumulators s

theorem State.dropFromSnapshot_captures (s : State) (p : Port) : (s.dropFromSnapshot p).captures = s.captures := by
  unfold State.dropFromSnapshot
  split <;> rfl

/-! ### The Lease Arbiter, the Configuration Controller and the ports -/

theorem State.passLease_captures (s : State) : s.passLease.captures = s.captures := by
  rcases s.passLease_cases with ⟨-, h⟩ | ⟨w, rest, -, h⟩ <;> rw [h] <;> rfl

theorem State.endTenure_captures (s : State) (event : LeaseEventKind) (holder : Port) :
    (s.endTenure event holder).captures = s.captures := State.passLease_captures _

theorem State.forfeitLease_captures (s : State) (p : Port) : (s.forfeitLease p).captures = s.captures := by
  rw [State.forfeitLease_eq]; rfl

theorem State.takeLease_captures (s : State) (p : Port) (seconds : Nat) (wait : Bool) :
    (s.takeLease p seconds wait).1.captures = s.captures := by
  unfold State.takeLease
  split
  · rfl
  · split
    · rfl
    · split <;> rfl

theorem State.scrub_captures (s : State) : s.scrub.captures = s.captures := by
  simp only [State.scrub]
  split <;> rfl

theorem State.handCommitted_captures (s : State) (old new : Table) : (s.handCommitted old new).captures = s.captures := by
  simp only [State.handCommitted]
  split <;> rfl

theorem State.discardSession_captures (s : State) (p : Port) : (s.discardSession p).captures = s.captures := by
  rw [State.discardSession_eq]; rfl

theorem State.refuseFrame_captures (s : State) (p : Port) (tag : Byte) (st : Status) :
    (s.refuseFrame p tag st).captures = s.captures :=
  (State.answer_captures _ p _).trans (ite_captures (State.captures_of_store (s.onCounters_store p _)))

theorem State.leadSeen_captures (s : State) (span : Nat) : (s.leadSeen span).captures = s.captures := by
  simp only [State.leadSeen]
  split
  · exact ite_captures rfl
  · split
    · rfl
    · split <;> rfl
  · rfl

theorem State.huntByte_captures (s : State) (b : Byte) : (s.huntByte b).captures = s.captures := by
  unfold State.huntByte
  split <;> rfl

/-! ### Requests on other blocks -/

theorem State.withSession_captures {s : State} {p : Port} {f : Session → State × Reply}
    (h : ∀ x, (f x).1.captures = s.captures) : (s.withSession p f).1.captures = s.captures := by
  unfold State.withSession
  split
  · rfl
  · exact h _

theorem State.withLease_captures {s : State} {p : Port} {f : Tenure → State × Reply}
    (h : ∀ t, (f t).1.captures = s.captures) : (s.withLease p f).1.captures = s.captures := by
  unfold State.withLease
  split
  · rfl
  · split
    · exact h _
    · rfl

theorem reqOpenSession_captures (p : Port) (deadline : Option W32) (start retention : Byte) (s : State) :
    (reqOpenSession p deadline start retention s).1.captures = s.captures := by
  have opened : ∀ (t : State) (x : Session) (hold : Bool), (t.opened p x hold).captures = t.captures := fun _ _ hold => by
    cases hold <;> rfl
  unfold reqOpenSession
  split
  · rfl
  · split
    · rfl
    · split
      · rfl
      · rw [State.openSession_eq]
        exact (State.appendNow_captures _ _).trans ((opened _ _ _).trans (State.captures_of_store s.settle_store))

theorem reqSetRetention_captures (p : Port) (retention : Byte) (s : State) :
    (reqSetRetention p retention s).1.captures = s.captures :=
  State.withSession_captures fun _ => by
    split
    · rfl
    · split
      · split <;> rfl
      · split <;> rfl

theorem reqAckEntries_captures (p : Port) (seq : W32) (s : State) : (reqAckEntries p seq s).1.captures = s.captures :=
  State.withSession_captures fun _ => by
    simp only []
    split
    · rfl
    · split
      · rfl
      · split <;> rfl

theorem reqAppendNote_captures (p : Port) (data : List Byte) (s : State) : (reqAppendNote p data s).1.captures = s.captures := by
  have stored := s.appendNow_captures (.note p data)
  unfold reqAppendNote
  split <;> (rename_i h; rw [h] at stored; exact stored)

theorem reqStageWrite_captures (p : Port) (sec record field : Byte) (value : W16) (s : State) :
    (reqStageWrite p sec record field value s).1.captures = s.captures :=
  State.withLease_captures fun _ => by
    split
    · rfl
    · split <;> rfl

theorem reqCommit_captures (p : Port) (s : State) : (reqCommit p s).1.captures = s.captures :=
  State.withLease_captures fun t => by
    split
    · rfl
    · exact (State.handCommitted_captures _ _ _).trans (State.appendNow_captures (s.installTable t.stage) _)

theorem reqClearTally_captures (p : Port) (mask : Byte) (s : State) : (reqClearTally p mask s).1.captures = s.captures :=
  State.withLease_captures fun _ => by
    split
    · rfl
    · exact State.appendNow_captures _ _

theorem reqDefineReadSet_captures (p : Port) (codes : List Byte) (s : State) :
    (reqDefineReadSet p codes s).1.captures = s.captures :=
  State.withSession_captures fun _ => by
    split
    · rfl
    · split <;> rfl

theorem reqPortStatus_captures (p : Port) (clear : Byte) (s : State) : (reqPortStatus p clear s).1.captures = s.captures := by
  unfold reqPortStatus
  split
  · rfl
  · exact ite_captures (State.captures_of_store (s.clearCounters_store p))

theorem reqLeaseTake_captures (p : Port) (seconds wait : Byte) (s : State) :
    (reqLeaseTake p seconds wait s).1.captures = s.captures := by
  simp only [reqLeaseTake]
  split
  · rfl
  · exact State.takeLease_captures _ _ _ _

theorem reqLeaseRelease_captures (p : Port) (s : State) : (reqLeaseRelease p s).1.captures = s.captures := by
  simp only [reqLeaseRelease]
  split
  · exact State.endTenure_captures _ _ _
  · split <;> rfl

end Sys2Proof.Machine
end

section
/-! SUPPORT. The law of the slots (R83, R84, R97) under the end of a session, every request, every command and every step. -/

namespace Sys2Proof.Machine

/-! ### The end of a session (R173) -/

section
variable {s : State} (l : s.store.SlotLaw)
include l

/-- The blocks tear down in any order (log 10). -/
theorem State.tearDownBlocks_slotLaw (p : Port) : (s.tearDownBlocks p).store.SlotLaw := by
  let t : State := { s with draws := s.draws + 1 }
  have dropped : (t.dropFromCaptures p).store.SlotLaw := State.dropFromCaptures_slotLaw (s := t) l p
  have dropThenForfeit : ((t.dropFromCaptures p).forfeitLease p).store.SlotLaw :=
    State.slotLaw_of_captures (State.forfeitLease_captures _ p) dropped
  simp only [State.tearDownBlocks]
  split
  · exact State.dropFromCaptures_slotLaw (State.slotLaw_of_captures (t.forfeitLease_captures p) l) p
  · split
    · exact dropThenForfeit
    · split
      · have handed : (t.handNow .leaseArbiter (.leaseEvent .forfeited p)).store.SlotLaw := l
        exact State.slotLaw_of_captures (State.passLease_captures _) (State.dropFromCaptures_slotLaw handed p)
      · exact dropThenForfeit

theorem State.endSession_slotLaw (p : Port) (event : SessionEventKind) : (s.endSession p event).1.store.SlotLaw := by
  have discarded := State.slotLaw_of_captures (s.discardSession_captures p) l
  have torn := State.slotLaw_of_captures (State.dropFromSnapshot_captures _ p) (State.tearDownBlocks_slotLaw discarded p)
  exact State.slotLaw_of_captures (State.appendNow_captures _ _) torn

/-! ### Requests -/

theorem reqCloseSession_slotLaw (p : Port) : (reqCloseSession p s).1.store.SlotLaw := by
  unfold reqCloseSession State.withSession
  split
  · exact l
  · exact State.endSession_slotLaw l p .closed

/-- CLOSE_SESSION, CAPTURE_NOW and RELEASE_CAPTURE concern the captures; every other request leaves them. -/
theorem State.perform_slotLaw (p : Port) (deadline : Option W32) (r : Request) : (s.perform p deadline r).1.store.SlotLaw := by
  have same : ∀ {t : State}, t.captures = s.captures → t.store.SlotLaw := fun h => State.slotLaw_of_captures h l
  cases r with
  | openSession start retention => exact same (reqOpenSession_captures p deadline start retention s)
  | closeSession => exact reqCloseSession_slotLaw l p
  | portStatus clear => exact same (reqPortStatus_captures p clear s)
  | setAttention mask watermark => exact same (State.withSession_captures fun _ => by split <;> rfl)
  | attentionStatus => exact same (State.withSession_captures fun _ => rfl)
  | setSubscription mask => exact same (State.withSession_captures fun _ => rfl)
  | setRetention retention => exact same (reqSetRetention_captures p retention s)
  | readEntries countAndAck => exact same (State.withSession_captures fun _ => by split <;> rfl)
  | ackEntries seq => exact same (reqAckEntries_captures p seq s)
  | rewind => exact same (State.withSession_captures fun _ => rfl)
  | journalStatus => exact same (State.withSession_captures fun _ => rfl)
  | appendNote data => exact same (reqAppendNote_captures p data s)
  | captureNow => exact State.takeTrigger_slotLaw l _ _ _
  | captureList => exact l
  | readFrames id part offset count => exact same (congrArg State.captures (reqReadFrames_state id part offset count s))
  | releaseCapture id => exact reqReleaseCapture_slotLaw l p id
  | storeStatus id => exact same (congrArg State.captures (reqStoreStatus_state id s))
  | readEnergy => exact same (State.withSession_captures fun _ => rfl)
  | markBaseline mask => exact same (State.withSession_captures fun _ => by split <;> rfl)
  | snapshot => exact same (by simp only [State.perform, reqSnapshot]; split <;> rfl)
  | readSnapshot => exact l
  | pulseStatus => exact l
  | leaseTake seconds wait => exact same (reqLeaseTake_captures p seconds wait s)
  | leaseRelease => exact same (reqLeaseRelease_captures p s)
  | leaseStatus => exact l
  | stageWrite sec record field value => exact same (reqStageWrite_captures p sec record field value s)
  | stageRead sec record field => exact same (State.withLease_captures fun _ => by split <;> rfl)
  | configRead sec record field => exact same (congrArg State.captures (reqConfigRead_state sec record field s))
  | commit => exact same (reqCommit_captures p s)
  | discard => exact same (State.withLease_captures fun _ => rfl)
  | clearTally mask => exact same (reqClearTally_captures p mask s)
  | restart generation => exact same (State.withLease_captures fun _ => by split <;> rfl)
  | defineReadSet codes => exact same (reqDefineReadSet_captures p codes s)
  | readSet => exact same (State.withSession_captures fun _ => rfl)
  | detectorStatus => exact l

/-! ### Frames and bytes -/

theorem State.takeRequestFrame_slotLaw (p : Port) (deadline : Option W32) (f : RequestFrame) :
    (s.takeRequestFrame p deadline f).store.SlotLaw := by
  rcases s.takeRequestFrame_cases p deadline f with ⟨st, -, h⟩ | ⟨r, -, h⟩ <;> rw [h]
  · exact State.slotLaw_of_captures (s.refuseFrame_captures p _ st) l
  · exact State.slotLaw_of_captures (State.answer_captures _ p _) (State.perform_slotLaw l p deadline r)

theorem State.arriveOnC_slotLaw (deadline : Option W32) (f : RequestFrame) : (s.arriveOnC deadline f).store.SlotLaw := by
  unfold State.arriveOnC
  split
  · exact State.takeRequestFrame_slotLaw l .c deadline f
  · split <;> exact l

theorem State.arrive_slotLaw (p : Port) (f : RequestFrame) : (s.arrive p f).store.SlotLaw := by
  cases p with
  | a => exact State.takeRequestFrame_slotLaw (s := s.restartIdle .a) l _ _ _
  | b => exact State.takeRequestFrame_slotLaw (s := s.restartIdle .b) l _ _ _
  | c => exact State.arriveOnC_slotLaw (s := s.restartIdle .c) l _ _

theorem State.syncByte_slotLaw (p : SyncId) (b : Byte) : (s.syncByte p b).store.SlotLaw := by
  simp only [State.syncByte]
  split
  · exact l
  · exact l
  · exact State.arrive_slotLaw (s := s.onLink p SyncLink.ignoreRest) l _ _

theorem State.frameByte_slotLaw (b : Byte) : (s.frameByte b).store.SlotLaw := by
  simp only [State.frameByte]
  split
  · exact l
  · exact l
  · exact State.arrive_slotLaw (s := s.onPortC AsyncLink.hunt) l _ _

theorem State.receiveByte_slotLaw (b : Byte) (stopHigh : Bool) : (s.receiveByte b stopHigh).store.SlotLaw := by
  unfold State.receiveByte
  split
  · exact l
  · split
    · exact State.slotLaw_of_captures (s.huntByte_captures b) l
    · exact l
  · split
    · exact State.frameByte_slotLaw l b
    · exact l

theorem State.fetchOne_slotLaw (p : SyncId) : (s.fetchOne p).store.SlotLaw := by
  simp only [State.fetchOne]
  split
  · exact l
  · split
    · split
      · exact s.restartNow_slotLaw
      · exact l
    · exact l

theorem State.responseDelivered_slotLaw (r : Response) : (s.responseDelivered r).store.SlotLaw := by
  unfold State.responseDelivered
  split
  · exact s.restartNow_slotLaw
  · split
    · exact l
    · exact State.takeRequestFrame_slotLaw (s := s.onPortC fun k => { k with sending := none, held := none }) l _ _ _

/-! ### Commands -/

theorem State.whenRunning_slotLaw {t : State} {f : State → State} (h : s.whenRunning f = .next t) (k : (f s).store.SlotLaw) :
    t.store.SlotLaw := by
  rcases s.whenRunning_cases f with ⟨-, e⟩ | ⟨-, e⟩ <;> (rw [e] at h; cases h)
  · exact k
  · exact l

/-- A command of the running part that leaves the captures. -/
theorem State.whenRunning_captures {t : State} {f : State → State} (h : s.whenRunning f = .next t)
    (k : (f s).captures = s.captures) : t.store.SlotLaw := State.whenRunning_slotLaw l h (State.slotLaw_of_captures k l)

variable {t : State}

/-! Commands of the Capture Store. -/

theorem execCaptureFrame_slotLaw (h : execCaptureFrame s = .next t) : t.store.SlotLaw := by
  refine State.whenRunning_slotLaw l h ?_
  split
  · exact l
  · rename_i f rest _
    exact State.captureFrame_slotLaw (s := s.setCapInbox rest) l f

theorem execCaptureTrigger_slotLaw (h : execCaptureTrigger s = .next t) : t.store.SlotLaw := by
  refine State.whenRunning_slotLaw l h ?_
  split
  · exact l
  · rename_i g rest drawn hd
    have drawnLaw : drawn.store.SlotLaw := State.slotLaw_of_captures (State.drawTrigger_captures hd) l
    exact State.takeTrigger_slotLaw (s := drawn.setCapInbox rest) drawnLaw _ _ _

theorem execCaptureConfig_slotLaw (h : execCaptureConfig s = .next t) : t.store.SlotLaw := by
  refine State.whenRunning_slotLaw l h ?_
  split
  · exact l
  · rename_i new rest _
    exact State.takeS2_slotLaw (s := s.setCapInbox rest) l new

theorem execCaptureTokenFree_slotLaw (h : execCaptureTokenFree s = .next t) : t.store.SlotLaw := by
  refine State.whenRunning_slotLaw l h ?_
  split
  · exact l
  · rename_i rest _
    exact State.retryStarved_slotLaw (s := s.setCapInbox rest) l

/-! Commands that end a session, take a frame or a byte, or bring a reset. -/

theorem execIdleExpiry_slotLaw {p : Port} (h : execIdleExpiry p s = .next t) : t.store.SlotLaw := by
  refine State.whenRunning_slotLaw l h ?_
  split
  · exact State.endSession_slotLaw l p .expired
  · exact l

theorem execLineBreak_slotLaw (h : execLineBreak s = .next t) : t.store.SlotLaw := by
  refine State.whenRunning_slotLaw l h ?_
  show (if _ then _ else _ : State).store.SlotLaw
  split
  · exact State.endSession_slotLaw l .c .portReset
  · exact l

theorem execRequestByte_slotLaw {p : SyncId} {b : Byte} (h : execRequestByte p b s = .next t) : t.store.SlotLaw := by
  refine State.whenRunning_slotLaw l h ?_
  split
  · exact State.syncByte_slotLaw l p b
  · exact l

theorem execFetchByte_slotLaw {p : SyncId} (h : execFetchByte p s = .next t) : t.store.SlotLaw := by
  refine State.whenRunning_slotLaw l h ?_
  split
  · exact State.fetchOne_slotLaw l p
  · exact l

theorem execResponseSent_slotLaw (h : execResponseSent s = .next t) : t.store.SlotLaw := by
  refine State.whenRunning_slotLaw l h ?_
  split
  · exact l
  · exact State.responseDelivered_slotLaw l _

theorem execRestartTimeout_slotLaw (h : execRestartTimeout s = .next t) : t.store.SlotLaw := by
  refine State.whenRunning_slotLaw l h ?_
  split
  · exact l
  · split
    · exact s.restartNow_slotLaw
    · exact l

theorem execPinReset_slotLaw (h : execPinReset s = .next t) : t.store.SlotLaw := by
  simp only [execPinReset] at h
  split at h <;> cases h
  · exact l
  · exact (s.restarted_isReset _ _).slotLaw

theorem execResetRelease_slotLaw (h : execResetRelease s = .next t) : t.store.SlotLaw := by
  simp only [execResetRelease] at h
  split at h <;> cases h <;> exact l

theorem execPortCByte_slotLaw {b : Byte} {stopHigh : Bool} (h : execPortCByte b stopHigh s = .next t) : t.store.SlotLaw :=
  State.whenRunning_slotLaw l h (State.receiveByte_slotLaw l b stopHigh)

theorem execBadFrame_slotLaw {p : Port} {tag code : Byte} {payload : List Byte} {check : Byte}
    (h : execBadFrame p tag code payload check s = .next t) : t.store.SlotLaw :=
  State.whenRunning_slotLaw l h (State.arrive_slotLaw l p _)

/-! Commands that leave the captures. -/

theorem execFrameTaken_slotLaw {u ia ib : W16} (h : execFrameTaken u ia ib s = .next t) : t.store.SlotLaw :=
  State.whenRunning_captures l h (s.takeFrame_captures _)

theorem execDetectorClose_slotLaw (h : execDetectorClose s = .next t) : t.store.SlotLaw := by
  refine State.whenRunning_captures l h ?_
  split
  · rfl
  · exact State.takeDetectorClose_captures _ _

theorem execEnergyClose_slotLaw (h : execEnergyClose s = .next t) : t.store.SlotLaw := by
  refine State.whenRunning_captures l h ?_
  split
  · rfl
  · exact State.takeEnergyClose_captures _ _

theorem execPulseHighEnd_slotLaw {e : PulseId} (h : execPulseHighEnd e s = .next t) : t.store.SlotLaw := by
  refine State.whenRunning_captures l h ?_
  simp only []
  split
  · exact ite_captures rfl
  · rfl

theorem execPulseGapEnd_slotLaw {e : PulseId} (h : execPulseGapEnd e s = .next t) : t.store.SlotLaw := by
  refine State.whenRunning_captures l h ?_
  simp only []
  split
  · exact ite_captures rfl
  · rfl

theorem execEnergyConfig_slotLaw (h : execEnergyConfig s = .next t) : t.store.SlotLaw := by
  refine State.whenRunning_captures l h ?_
  split
  · exact State.takeS3_captures _ _
  · rfl

theorem execEnergyFault_slotLaw (h : execEnergyFault s = .next t) : t.store.SlotLaw :=
  State.whenRunning_captures l h (by split <;> rfl)

theorem execXtrigOutPulseEnd_slotLaw (h : execXtrigOutPulseEnd s = .next t) : t.store.SlotLaw := by
  refine State.whenRunning_captures l h ?_
  split
  · rfl
  · exact ite_captures rfl

theorem execJournalAppend_slotLaw {source : Source} (h : execJournalAppend source s = .next t) : t.store.SlotLaw := by
  refine State.whenRunning_captures l h ?_
  split
  · rfl
  · exact State.takeAppend_captures _ _ _ _

theorem execLeaseExpiry_slotLaw (h : execLeaseExpiry s = .next t) : t.store.SlotLaw := by
  refine State.whenRunning_captures l h ?_
  split
  · rfl
  · exact ite_captures (State.endTenure_captures _ _ _)

theorem execSelectFall_slotLaw {p : SyncId} (h : execSelectFall p s = .next t) : t.store.SlotLaw :=
  State.whenRunning_captures (s := s.setSelect p true) l h (by split <;> rfl)

theorem execSelectRise_slotLaw {p : SyncId} (h : execSelectRise p s = .next t) : t.store.SlotLaw :=
  State.whenRunning_captures (s := s.setSelect p false) l h (ite_captures rfl)

theorem execXtrigInEdge_slotLaw {high : Bool} (h : execXtrigInEdge high s = .next t) : t.store.SlotLaw :=
  State.whenRunning_captures (s := { s with pins := { s.pins with xtrigInHigh := high } }) l h (State.senseXtrig_captures _ high)

theorem execFrameGapTimeout_slotLaw {p : Port} (h : execFrameGapTimeout p s = .next t) : t.store.SlotLaw :=
  State.whenRunning_captures l h (by cases p <;> exact ite_captures rfl)

theorem execTickCount_slotLaw (h : execTickCount s = .next t) : t.store.SlotLaw := State.whenRunning_slotLaw l h l

/-- Every command keeps the law of the slots. -/
theorem exec_slotLaw {c : Instr} (h : exec c s = .next t) : t.store.SlotLaw := by
  cases hr : asRequest c with
  | some r =>
    obtain ⟨p, tag, r⟩ := r
    exact State.whenRunning_slotLaw l (exec_request hr s ▸ h) (State.arrive_slotLaw l p _)
  | none =>
    cases c with
    | powerOnReset => cases h; exact State.IsReset.slotLaw ⟨_, _, _, _, _, _, _, _, rfl⟩
    | pinReset => exact execPinReset_slotLaw l h
    | frameTaken u ia ib => exact execFrameTaken_slotLaw l h
    | detectorClose => exact execDetectorClose_slotLaw l h
    | energyClose => exact execEnergyClose_slotLaw l h
    | pulseHighEnd e => exact execPulseHighEnd_slotLaw l h
    | pulseGapEnd e => exact execPulseGapEnd_slotLaw l h
    | energyConfig => exact execEnergyConfig_slotLaw l h
    | energyFault => exact execEnergyFault_slotLaw l h
    | captureFrame => exact execCaptureFrame_slotLaw l h
    | captureTrigger => exact execCaptureTrigger_slotLaw l h
    | xtrigInEdge high => exact execXtrigInEdge_slotLaw l h
    | xtrigOutPulseEnd => exact execXtrigOutPulseEnd_slotLaw l h
    | captureConfig => exact execCaptureConfig_slotLaw l h
    | captureTokenFree => exact execCaptureTokenFree_slotLaw l h
    | journalAppend source => exact execJournalAppend_slotLaw l h
    | leaseExpiry => exact execLeaseExpiry_slotLaw l h
    | leaseWarnStart => exact State.whenRunning_captures (f := id) l h rfl
    | integrityScrub => exact State.whenRunning_captures l h (ite_captures s.scrub_captures)
    | idleExpiry p => exact execIdleExpiry_slotLaw l h
    | restartTimeout => exact execRestartTimeout_slotLaw l h
    | selectFall p => exact execSelectFall_slotLaw l h
    | selectRise p => exact execSelectRise_slotLaw l h
    | firstByte p b => exact State.whenRunning_captures l h (ite_captures rfl)
    | requestByte p b => exact execRequestByte_slotLaw l h
    | fetchByte p => exact execFetchByte_slotLaw l h
    | frameGapTimeout p => exact execFrameGapTimeout_slotLaw l h
    | leadPattern i1 i2 i3 i4 next => exact State.whenRunning_captures l h (ite_captures (s.leadSeen_captures _))
    | portCByte b stopHigh => exact execPortCByte_slotLaw l h
    | responseSent => exact execResponseSent_slotLaw l h
    | lineBreak => exact execLineBreak_slotLaw l h
    | badFrame p tag code payload check => exact execBadFrame_slotLaw l h
    | tickCount => exact execTickCount_slotLaw l h
    | resetRelease => exact execResetRelease_slotLaw l h
    | _ => cases hr

end

/-- Settles O21: every command takes a slot only where it is in no other use, and starves only with every slot sealed. -/
theorem slotLawKept : Obligations.SlotLawKept := fun _ _ l h =>
  step_induction (P := fun s => s.store.SlotLaw) (fun _ _ => id) (fun _ _ _ l k => exec_slotLaw l k) l h

end Sys2Proof.Machine
end

section
/-! SUPPORT. The pulse engines at a close (R110, R120, R121): an engine that is handed quanta, and the work of several such hands, each at an
engine of its own. -/

namespace Sys2Proof.Machine

/-! ### One engine handed quanta -/

/-- An engine after it is handed quanta, how many pulses are lost, and whether a free value was drawn. -/
def PulseEngine.fed (x : PulseEngine) (cfg : PulseCfg) (quanta : Nat) (now : W32) (draw : Nat) : PulseEngine × Nat × Bool :=
  let out := PulseEngine.owe { x with residue := (x.residue + quanta) % cfg.k.toNat } ((x.residue + quanta) / cfg.k.toNat)
    cfg.width.toNat now draw
  ({ out.1 with lost := satAdd limit16 out.1.lost out.2.1 }, out.2)

/-- The pulses that an engine handed quanta would have pending if none started and none were lost. -/
def PulseEngine.wanted (x : PulseEngine) (cfg : PulseCfg) (quanta : Nat) : Nat := x.pending + (x.residue + quanta) / cfg.k.toNat

section
variable {x : PulseEngine} {cfg : PulseCfg} {quanta : Nat} {now : W32} {draw : Nat}

theorem PulseEngine.fed_busy (hx : x.phase ≠ .idle) : x.fed cfg quanta now draw =
    ({ x with
        residue := (x.residue + quanta) % cfg.k.toNat
        pending := min 15 (x.wanted cfg quanta)
        lost := min 65535 (x.lost + (x.wanted cfg quanta - 15)) }, x.wanted cfg quanta - 15, false) := by
  cases hp : x.phase with
  | idle => exact absurd hp hx
  | _ => simp only [PulseEngine.fed, PulseEngine.owe, hp, PulseEngine.wanted, satAdd]

theorem PulseEngine.fed_nothing (hx : x.phase = .idle) (hw : x.wanted cfg quanta = 0) : x.fed cfg quanta now draw =
    ({ x with residue := (x.residue + quanta) % cfg.k.toNat, lost := min 65535 x.lost }, 0, false) := by
  have hw' : x.pending + (x.residue + quanta) / cfg.k.toNat = 0 := hw
  simp only [PulseEngine.fed, PulseEngine.owe, hx, hw', if_true, satAdd, Nat.add_zero]

theorem PulseEngine.fed_starts (hx : x.phase = .idle) (h1 : 1 ≤ x.wanted cfg quanta) (h15 : x.wanted cfg quanta ≤ 15) :
    x.fed cfg quanta now draw =
      ({ residue := (x.residue + quanta) % cfg.k.toNat
         pending := x.wanted cfg quanta - 1
         lost := min 65535 x.lost
         phase := startPulse cfg.width.toNat now }, 0, false) := by
  have h0 : ¬ x.pending + (x.residue + quanta) / cfg.k.toNat = 0 := Nat.ne_of_gt h1
  have hle : x.pending + (x.residue + quanta) / cfg.k.toNat ≤ pendingLimit := h15
  simp only [PulseEngine.fed, PulseEngine.owe, hx, h0, hle, if_true, if_false, satAdd, Nat.add_zero, PulseEngine.wanted]

/-- With more owed than may be pending, an idle engine takes one more than its limit if its pulse starts first (log 11). -/
theorem PulseEngine.fed_overflows (hx : x.phase = .idle) (h16 : 16 ≤ x.wanted cfg quanta) :
    ∃ first ≤ 1, x.fed cfg quanta now draw =
      ({ residue := (x.residue + quanta) % cfg.k.toNat
         pending := 14 + first
         lost := min 65535 (x.lost + (x.wanted cfg quanta - 15 - first))
         phase := startPulse cfg.width.toNat now }, x.wanted cfg quanta - 15 - first, true) := by
  have h0 : ¬ x.pending + (x.residue + quanta) / cfg.k.toNat = 0 := by rw [← PulseEngine.wanted]; omega
  have hle : ¬ x.pending + (x.residue + quanta) / cfg.k.toNat ≤ pendingLimit := not_le.mpr h16
  cases hc : Config.pulseStartsFirst draw with
  | true =>
    refine ⟨1, le_refl 1, ?_⟩
    simp only [PulseEngine.fed, PulseEngine.owe, hx, h0, hle, hc, if_true, if_false, satAdd, PulseEngine.wanted, Nat.sub_right_comm]
  | false =>
    refine ⟨0, Nat.zero_le 1, ?_⟩
    simp only [PulseEngine.fed, PulseEngine.owe, hx, h0, hle, hc, Bool.false_eq_true, if_false, satAdd, PulseEngine.wanted,
      Nat.sub_zero]
    rfl

theorem PulseEngine.owe_residue (x : PulseEngine) (owed width : Nat) (now : W32) (draw : Nat) :
    (x.owe owed width now draw).1.residue = x.residue := by
  simp only [PulseEngine.owe]
  split
  · split_ifs <;> rfl
  · rfl

theorem PulseEngine.fed_residue : (x.fed cfg quanta now draw).1.residue = (x.residue + quanta) % cfg.k.toNat :=
  PulseEngine.owe_residue ..

/-- At most 15 pulses lose none. -/
theorem PulseEngine.fed_loses_none (h : x.wanted cfg quanta ≤ 15) : (x.fed cfg quanta now draw).2.1 = 0 := by
  by_cases hx : x.phase = .idle
  · rcases Nat.eq_zero_or_pos (x.wanted cfg quanta) with h0 | h1
    · rw [PulseEngine.fed_nothing hx h0]
    · rw [PulseEngine.fed_starts hx h1 h]
  · rw [PulseEngine.fed_busy hx]
    exact Nat.sub_eq_zero_of_le h

/-- More pulses than may be pending beside one that starts lose some. -/
theorem PulseEngine.fed_loses (h : (if x.phase = .idle then 17 else 16) ≤ x.wanted cfg quanta) :
    (x.fed cfg quanta now draw).2.1 ≠ 0 := by
  by_cases hx : x.phase = .idle
  · rw [if_pos hx] at h
    obtain ⟨first, hle, hf⟩ := PulseEngine.fed_overflows (now := now) (draw := draw) hx (by omega : 16 ≤ x.wanted cfg quanta)
    rw [hf]
    show x.wanted cfg quanta - 15 - first ≠ 0
    omega
  · rw [if_neg hx] at h
    rw [PulseEngine.fed_busy hx]
    show x.wanted cfg quanta - 15 ≠ 0
    omega

end

/-! ### What feeding changes of the state -/

/-- The pulse engines, the sessions and the count of drawn values replaced. -/
def State.withLines (s : State) (engines : PerPulse PulseEngine) (sessions : PerPort (Option Session)) (draws : Nat) : State :=
  { s with energy := { s.energy with engines := engines }, sessions := sessions, draws := draws }

/-- PULSE_LOST latched, in every session if a pulse is lost. -/
def Session.withLost (lost : Bool) (y : Session) : Session :=
  { y with latches := { y.latches with pulseLost := y.latches.pulseLost || lost } }

/-- The sessions after it is told whether a pulse is lost. -/
def lostIn (lost : Bool) (v : PerPort (Option Session)) : PerPort (Option Session) := v.mapWith fun _ z => z.map (Session.withLost lost)

theorem lostIn_false (v : PerPort (Option Session)) : lostIn false v = v :=
  PerPort.mapWith_self v fun _ y => by simp only [Session.withLost, Bool.or_false]

theorem lostIn_lostIn (l k : Bool) (v : PerPort (Option Session)) : lostIn k (lostIn l v) = lostIn (l || k) v := by
  have both : ∀ y, Session.withLost k (Session.withLost l y) = Session.withLost (l || k) y := fun y => by
    simp only [Session.withLost, Bool.or_assoc]
  refine (PerPort.mapWith_mapWith v _ _).trans ?_
  simp only [both, lostIn]

theorem State.latchPulseLost_eq (s : State) : s.latchPulseLost = { s with sessions := lostIn true s.sessions } := by
  have latched : ∀ y : Session, { y with latches := y.latches.setPulseLost } = y.withLost true := fun y => by
    rw [Session.withLost, Bool.or_true]; rfl
  simp only [State.latchPulseLost, State.latchHosts, State.onSessions, PerPort.get_all, if_true, latched]
  rfl

theorem State.feedEngine_eq (s : State) (e : PulseId) (quanta : Nat) :
    let out := (s.energy.engines.get e).fed (s.energy.s3.pulse.get e) quanta s.front.tick s.draws
    s.feedEngine e quanta = s.withLines (s.energy.engines.set e out.1) (lostIn (out.2.1 != 0) s.sessions)
      (if out.2.2 then s.draws + 1 else s.draws) := by
  intro out
  have same : s.feedEngine e quanta =
      let t := s.setEngine e out.1
      let t := if out.2.2 then { t with draws := t.draws + 1 } else t
      if out.2.1 = 0 then t else t.latchPulseLost := rfl
  rw [same]
  obtain ⟨y, lost, drawn⟩ := out
  by_cases h : lost = 0
  · have none_lost : (lost != 0) = false := bne_eq_false_iff_eq.mpr h
    subst h
    simp only [none_lost, if_true, lostIn_false]
    cases drawn <;> rfl
  · have some_lost : (lost != 0) = true := bne_iff_ne.mpr h
    rw [some_lost]
    simp only [h, if_false, State.latchPulseLost_eq]
    cases drawn <;> rfl

/-- The records of the accumulators and the journal replaced: no pulse engine reads them. -/
def State.withBooks (s : State) (acc : PerAcc Accumulator) (journal : Journal) : State :=
  { s with energy := { s.energy with acc := acc }, journal := journal }

theorem State.feedEngine_withBooks (s : State) (acc : PerAcc Accumulator) (journal : Journal) (e : PulseId) (quanta : Nat) :
    (s.withBooks acc journal).feedEngine e quanta = (s.feedEngine e quanta).withBooks acc journal := by
  rw [State.feedEngine_eq, State.feedEngine_eq]
  rfl

/-! ### Several engines, each handed quanta once -/

/-- What handing quanta to an engine can make of it, where there are any, with how many pulses are lost. -/
inductive PulseEngine.Hands (x : PulseEngine) (cfg : PulseCfg) (now : W32) : Nat → PulseEngine → Nat → Prop
  | nothing : Hands x cfg now 0 x 0
  | feeds {quanta : Nat} (h : quanta ≠ 0) (draw : Nat) :
    Hands x cfg now quanta (x.fed cfg quanta now draw).1 (x.fed cfg quanta now draw).2.1

theorem PulseEngine.Hands.of_zero {x y : PulseEngine} {cfg : PulseCfg} {now : W32} {lost : Nat} (h : x.Hands cfg now 0 y lost) :
    y = x ∧ lost = 0 := by
  cases h with
  | nothing => exact ⟨rfl, rfl⟩
  | feeds h => exact absurd rfl h

theorem PulseEngine.Hands.fed {x y : PulseEngine} {cfg : PulseCfg} {now : W32} {quanta lost : Nat} (h : x.Hands cfg now quanta y lost)
    (hq : quanta ≠ 0) : ∃ draw, y = (x.fed cfg quanta now draw).1 ∧ lost = (x.fed cfg quanta now draw).2.1 := by
  cases h with
  | nothing => exact absurd rfl hq
  | feeds _ draw => exact ⟨draw, rfl, rfl⟩

/-- Of two hands at most one has quanta. -/
theorem PulseEngine.Hands.trans {x y z : PulseEngine} {cfg : PulseCfg} {now : W32} {m n k l : Nat} (hm : x.Hands cfg now m y k)
    (hn : y.Hands cfg now n z l) (apart : m = 0 ∨ n = 0) : x.Hands cfg now (m + n) z (k + l) := by
  rcases apart with rfl | rfl
  · obtain ⟨rfl, rfl⟩ := hm.of_zero
    rwa [Nat.zero_add, Nat.zero_add]
  · obtain ⟨rfl, rfl⟩ := hn.of_zero
    exact hm

/-- An engine that comes to 15 pulses at most loses none. -/
theorem PulseEngine.Hands.loses_none {x y : PulseEngine} {cfg : PulseCfg} {now : W32} {quanta lost : Nat}
    (h : x.Hands cfg now quanta y lost) (hw : quanta ≠ 0 → x.wanted cfg quanta ≤ 15) : lost = 0 := by
  cases h with
  | nothing => rfl
  | feeds hq draw => exact PulseEngine.fed_loses_none (hw hq)

/-- One state is another after each engine is handed its quanta, whatever the free values drawn. -/
structure Fed (quanta : PulseId → Nat) (s t : State) : Prop where
  lines : ∃ (lost : PulseId → Nat) (draws : Nat),
    t = s.withLines t.energy.engines (lostIn (lost .p0 + lost .p1 != 0) s.sessions) draws
      ∧ ∀ e, (s.energy.engines.get e).Hands (s.energy.s3.pulse.get e) s.front.tick (quanta e) (t.energy.engines.get e) (lost e)
  nothing : (∀ e, quanta e = 0) → t = s

theorem Fed.s3 {quanta : PulseId → Nat} {s t : State} (h : Fed quanta s t) : t.energy.s3 = s.energy.s3 := by
  obtain ⟨lost, draws, ht, -⟩ := h.lines
  rw [ht]
  rfl

theorem Fed.refl {quanta : PulseId → Nat} (h : ∀ e, quanta e = 0) (s : State) : Fed quanta s s where
  lines := by
    refine ⟨fun _ => 0, s.draws, ?_, fun e => by rw [h e]; exact .nothing⟩
    exact congrArg (fun v => s.withLines s.energy.engines v s.draws) (lostIn_false s.sessions).symm
  nothing _ := rfl

theorem State.feedEngine_fed (s : State) (e : PulseId) {quanta : Nat} (h : quanta ≠ 0) :
    Fed (fun i => if i = e then quanta else 0) s (s.feedEngine e quanta) where
  lines := by
    let out := (s.energy.engines.get e).fed (s.energy.s3.pulse.get e) quanta s.front.tick s.draws
    let lost := fun i => if i = e then out.2.1 else 0
    have total : lost .p0 + lost .p1 = out.2.1 := by cases e <;> simp [lost]
    have engines : (s.feedEngine e quanta).energy.engines = s.energy.engines.set e out.1 := by rw [State.feedEngine_eq]; rfl
    refine ⟨lost, if out.2.2 then s.draws + 1 else s.draws, ?_, fun i => ?_⟩
    · rw [engines, total]
      exact s.feedEngine_eq e quanta
    · rw [engines, PerPulse.get_set]
      by_cases hi : i = e
      · subst hi
        simp only [lost, if_true]
        exact .feeds h s.draws
      · simp only [lost, hi, if_false]
        exact .nothing
  nothing none := absurd ((if_pos rfl).symm.trans (none e)) h

theorem Fed.trans {f g : PulseId → Nat} {s t u : State} (hst : Fed f s t) (htu : Fed g t u) (apart : ∀ e, f e = 0 ∨ g e = 0) :
    Fed (fun e => f e + g e) s u where
  lines := by
    obtain ⟨lf, nf, ht, hf⟩ := hst.lines
    obtain ⟨lg, ng, hu, hg⟩ := htu.lines
    have tick : t.front = s.front := by rw [ht]; rfl
    have sessions : lostIn (lg .p0 + lg .p1 != 0) t.sessions = lostIn (lf .p0 + lg .p0 + (lf .p1 + lg .p1) != 0) s.sessions := by
      have either : ((lf .p0 + lf .p1 != 0) || (lg .p0 + lg .p1 != 0)) = (lf .p0 + lg .p0 + (lf .p1 + lg .p1) != 0) := by
        rw [Bool.eq_iff_iff, Bool.or_eq_true, bne_iff_ne, bne_iff_ne, bne_iff_ne]
        omega
      have ht' : t.sessions = lostIn (lf .p0 + lf .p1 != 0) s.sessions := by rw [ht]; rfl
      rw [ht', lostIn_lostIn, either]
    refine ⟨fun e => lf e + lg e, ng, ?_, fun e => ?_⟩
    · rw [← sessions]
      calc u = t.withLines u.energy.engines (lostIn (lg .p0 + lg .p1 != 0) t.sessions) ng := hu
        _ = _ := by
          generalize lostIn (lg .p0 + lg .p1 != 0) t.sessions = v
          rw [ht]
          rfl
    · refine (hf e).trans ?_ (apart e)
      rw [← hst.s3, ← tick]
      exact hg e
  nothing none := by
    have hf : ∀ e, f e = 0 := fun e => (Nat.add_eq_zero_iff.mp (none e)).1
    have hg : ∀ e, g e = 0 := fun e => (Nat.add_eq_zero_iff.mp (none e)).2
    rw [htu.nothing hg, hst.nothing hf]

/-- Hands made for each of several things, no two of which reach one engine. -/
theorem foldl_fed {α : Type} {s3 : EnergyCfg} {quanta : α → PulseId → Nat} {f : State → α → State}
    (h : ∀ t a, t.energy.s3 = s3 → Fed (quanta a) t (f t a)) {l : List α}
    (apart : l.Pairwise fun a b => ∀ e, quanta a e = 0 ∨ quanta b e = 0) {s : State} (hs : s.energy.s3 = s3) :
    Fed (fun e => (l.map (quanta · e)).sum) s (l.foldl f s) := by
  induction l generalizing s with
  | nil => exact .refl (fun _ => rfl) s
  | cons a l ih =>
    obtain ⟨ha, apart⟩ := List.pairwise_cons.mp apart
    have first := h s a hs
    refine first.trans (ih apart (first.s3.trans hs)) fun e => ?_
    by_cases he : quanta a e = 0
    · exact .inl he
    · refine .inr (List.sum_eq_zero fun n hn => ?_)
      obtain ⟨b, hb, rfl⟩ := List.mem_map.mp hn
      exact (ha b hb e).resolve_left he

/-! ### The engines bound to an accumulator (R110) -/

/-- Quanta handed to the engines bound to an accumulator, where there are any. -/
def State.handQuanta (s : State) (a : AccId) (quanta : Nat) : State := if quanta = 0 then s else s.feedBound a quanta

theorem State.handQuanta_fed (s : State) (a : AccId) (quanta : Nat) :
    Fed (fun e => if boundAcc (s.energy.s3.pulse.get e).binding = some a then quanta else 0) s (s.handQuanta a quanta) := by
  by_cases hq : quanta = 0
  · rw [State.handQuanta, if_pos hq]
    exact .refl (fun e => by rw [hq, ite_self]) s
  · rw [State.handQuanta, if_neg hq]
    let hand := fun (i e : PulseId) => if e = i then (if boundAcc (s.energy.s3.pulse.get i).binding = some a then quanta else 0) else 0
    have total : (fun e => (allPulseEngines.map (hand · e)).sum) =
        fun e => if boundAcc (s.energy.s3.pulse.get e).binding = some a then quanta else 0 := by
      funext e
      cases e <;> simp [allPulseEngines, hand]
    rw [← total]
    refine foldl_fed (s3 := s.energy.s3) (fun t i ht => ?_) ?_ rfl
    · rw [ht]
      by_cases hi : boundAcc (s.energy.s3.pulse.get i).binding = some a
      · simp only [hand, hi, if_true]
        exact t.feedEngine_fed i hq
      · simp only [hand, hi, if_false]
        exact .refl (fun e => ite_self _) t
    · have distinct : allPulseEngines.Nodup := by decide
      refine distinct.imp fun {i j} hij e => ?_
      by_cases he : e = i
      · exact .inr (if_neg fun hj => hij (he.symm.trans hj))
      · exact .inl (if_neg he)

theorem State.handQuanta_withBooks (s : State) (acc : PerAcc Accumulator) (journal : Journal) (a : AccId) (quanta : Nat) :
    (s.withBooks acc journal).handQuanta a quanta = (s.handQuanta a quanta).withBooks acc journal := by
  simp only [State.handQuanta]
  split
  · rfl
  · refine List.foldl_hom (State.withBooks · acc journal) fun t e => ?_
    by_cases he : boundAcc (t.energy.s3.pulse.get e).binding = some a
    · rw [if_pos he]
      exact (if_pos he).trans (t.feedEngine_withBooks acc journal e quanta)
    · rw [if_neg he]
      exact if_neg he

end Sys2Proof.Machine
end

section
/-! SUPPORT. A close at the Energy Block (6.2, 6.3): what it makes of an accumulator by its own gate, and the work of all four as their records and
CREEP_CHANGE entries on one side and the quanta handed to the pulse engines on the other. -/

namespace Sys2Proof.Machine

/-! ### One accumulator by its own record (R109 to R114) -/

/-- The low test in the terms of R112. -/
theorem lowHalfCycle_iff (cfg : AccCfg) (x : Summary) : lowHalfCycle cfg x = true ↔
    EnergySource.ofCode cfg.source ≠ .time ∧ ((EnergySource.ofCode cfg.source).average x).natAbs < cfg.creepLevel.toNat := by
  simp only [lowHalfCycle, Bool.and_eq_true, bne_iff_ne, decide_eq_true_iff]

theorem lowHalfCycle_eq_false_iff (cfg : AccCfg) (x : Summary) : lowHalfCycle cfg x = false ↔
    EnergySource.ofCode cfg.source = .time ∨ cfg.creepLevel.toNat ≤ ((EnergySource.ofCode cfg.source).average x).natAbs := by
  rw [← Bool.not_eq_true, lowHalfCycle_iff, not_and_or, not_not, not_lt]

/-- A half-cycle counted into a record: the record, and the quanta that move (R109, R110). -/
def Accumulator.counted (cfg : AccCfg) (x : Summary) (r : Accumulator) : Accumulator × Int :=
  r.count ((EnergyDirection.ofCode cfg.direction).counted ((EnergySource.ofCode cfg.source).average x * x.n))
    (EnergySource.ofCode cfg.source).divider x.hc

/-- What a close makes of an accumulator: its record, the gates that it enters, and the magnitude of the quanta that move. -/
structure CloseOutcome where
  record : Accumulator
  gates : List Gate
  quanta : Nat

/-- An accumulator that a close leaves alone. -/
def CloseOutcome.unmoved (r : Accumulator) : CloseOutcome := { record := r, gates := [], quanta := 0 }

/-- An accumulator that counts a close, after it has entered the gates. -/
def CloseOutcome.counts (cfg : AccCfg) (x : Summary) (r : Accumulator) (gates : List Gate) : CloseOutcome :=
  { record := (r.counted cfg x).1, gates := gates, quanta := (r.counted cfg x).2.natAbs }

/-- The table of 6.3 (R111 to R114). -/
def Accumulator.atClose (cfg : AccCfg) (x : Summary) (r : Accumulator) : CloseOutcome :=
  match r.gate, lowHalfCycle cfg x with
  | .fault, _ => .unmoved r
  | .running, false => .counts cfg x { r with creepRun := 0 } []
  | .running, true =>
    if r.creepRun + 1 < cfg.creepCount.toNat then .counts cfg x { r with creepRun := r.creepRun + 1 } []
    else { record := { r with gate := .creep, creepRun := 0, residue := 0 }, gates := [.creep], quanta := 0 }
  | .creep, true => .unmoved r
  | .creep, false => .counts cfg x { r with gate := .running, creepRun := 0 } [.running]

section
variable {cfg : AccCfg} {x : Summary} {r : Accumulator}

theorem Accumulator.atClose_fault (hg : r.gate = .fault) : r.atClose cfg x = .unmoved r := by
  simp only [Accumulator.atClose, hg]

theorem Accumulator.atClose_running (hg : r.gate = .running) (hl : lowHalfCycle cfg x = false) :
    r.atClose cfg x = .counts cfg x { r with creepRun := 0 } [] := by simp only [Accumulator.atClose, hg, hl]

theorem Accumulator.atClose_lowering (hg : r.gate = .running) (hl : lowHalfCycle cfg x = true)
    (hr : r.creepRun + 1 < cfg.creepCount.toNat) :
    r.atClose cfg x = .counts cfg x { r with creepRun := r.creepRun + 1 } [] := by simp only [Accumulator.atClose, hg, hl, hr, if_true]

theorem Accumulator.atClose_enters (hg : r.gate = .running) (hl : lowHalfCycle cfg x = true)
    (hr : cfg.creepCount.toNat ≤ r.creepRun + 1) :
    r.atClose cfg x = { record := { r with gate := .creep, creepRun := 0, residue := 0 }, gates := [.creep], quanta := 0 } := by
  simp only [Accumulator.atClose, hg, hl, not_lt.mpr hr, if_false]

theorem Accumulator.atClose_creeping (hg : r.gate = .creep) (hl : lowHalfCycle cfg x = true) :
    r.atClose cfg x = .unmoved r := by simp only [Accumulator.atClose, hg, hl]

theorem Accumulator.atClose_leaves (hg : r.gate = .creep) (hl : lowHalfCycle cfg x = false) :
    r.atClose cfg x = .counts cfg x { r with gate := .running, creepRun := 0 } [.running] := by
  simp only [Accumulator.atClose, hg, hl]

end

/-! ### The work on the state, in two parts -/

/-- What a close makes of one accumulator of a state. -/
def State.outcomeAt (s : State) (close : HandedClose) (a : AccId) : CloseOutcome :=
  (s.energy.acc.get a).atClose (s.energy.s3.acc.get a) close.summary

/-- The CREEP_CHANGE entries of one accumulator at a close (R113). -/
def creepEntries (close : HandedClose) (a : AccId) (gates : List Gate) : List Append :=
  gates.map fun g => { source := .energyBlock, tick := close.tick, hc := close.summary.hc, body := .creepChange a g }

/-- A state with what a close makes of the records of some accumulators, and with their entries handed to the journal. -/
def State.withClosed (s : State) (close : HandedClose) (l : List AccId) : State :=
  s.withBooks (s.energy.acc.mapWith fun i r => if i ∈ l then (s.outcomeAt close i).record else r)
    { s.journal with waiting := s.journal.waiting ++ l.flatMap fun i => creepEntries close i (s.outcomeAt close i).gates }

/-! ### The work of all four -/

theorem State.countHalfCycle_eq (s : State) (a : AccId) (r : Accumulator) (x : Summary) :
    (s.setAcc a r).countHalfCycle a x =
      (s.setAcc a (r.counted (s.energy.s3.acc.get a) x).1).handQuanta a (r.counted (s.energy.s3.acc.get a) x).2.natAbs := by
  have record : (s.setAcc a r).energy.acc.get a = r := PerAcc.get_set_self ..
  simp only [State.countHalfCycle, record, State.handQuanta, Int.natAbs_eq_zero]
  have again : ∀ r', (s.setAcc a r).setAcc a r' = s.setAcc a r' := fun r' => by
    simp only [State.setAcc, PerAcc.set_set]
  rw [again]
  rfl

/-- A state with the outcome of a close for one accumulator: the quanta that move handed to the engines, the record replaced, the change of gate
handed to the journal. -/
def State.withOutcome (s : State) (close : HandedClose) (a : AccId) (o : CloseOutcome) : State :=
  (s.handQuanta a o.quanta).withBooks (s.energy.acc.set a o.record)
    { s.journal with waiting := s.journal.waiting ++ creepEntries close a o.gates }

section
variable (close : HandedClose) (s : State) (a : AccId)

theorem State.withOutcome_unmoved : s.withOutcome close a (.unmoved (s.energy.acc.get a)) = s := by
  show s.withBooks (s.energy.acc.set a (s.energy.acc.get a)) { s.journal with waiting := s.journal.waiting ++ [] } = s
  rw [PerAcc.set_get_self, List.append_nil]
  rfl

/-- Counting under a record, with no change of gate. -/
theorem State.countHalfCycle_withOutcome (r : Accumulator) : (s.setAcc a r).countHalfCycle a close.summary =
    s.withOutcome close a (.counts (s.energy.s3.acc.get a) close.summary r []) := by
  show _ = (s.handQuanta a _).withBooks _ { s.journal with waiting := s.journal.waiting ++ [] }
  rw [State.countHalfCycle_eq, List.append_nil, ← State.handQuanta_withBooks]
  rfl

/-- Counting under a record that has entered a gate. -/
theorem State.countHalfCycle_hand_withOutcome (r : Accumulator) (g : Gate) :
    ((s.setAcc a r).hand .energyBlock close.tick close.summary.hc (.creepChange a g)).countHalfCycle a close.summary =
      s.withOutcome close a (.counts (s.energy.s3.acc.get a) close.summary r [g]) := by
  let handed := s.hand .energyBlock close.tick close.summary.hc (.creepChange a g)
  exact (handed.countHalfCycle_eq a r close.summary).trans (State.handQuanta_withBooks s _ _ a _)

/-- One accumulator's work is its outcome. -/
theorem State.workAccumulator_eq : s.workAccumulator close a = s.withOutcome close a (s.outcomeAt close a) := by
  rw [State.outcomeAt]
  simp only [State.workAccumulator]
  split
  next fault => rw [Accumulator.atClose_fault fault, State.withOutcome_unmoved]
  next running =>
    split
    next high =>
      rw [Accumulator.atClose_running running (Bool.not_eq_true' _ ▸ high)]
      exact s.countHalfCycle_withOutcome close a _
    next notHigh =>
      have low : lowHalfCycle (s.energy.s3.acc.get a) close.summary = true := by simpa using notHigh
      split
      next below =>
        rw [Accumulator.atClose_lowering running low below]
        exact s.countHalfCycle_withOutcome close a _
      next reached =>
        rw [Accumulator.atClose_enters running low (not_lt.mp reached)]
        rfl
  next creeping =>
    split
    next low => rw [Accumulator.atClose_creeping creeping low, State.withOutcome_unmoved]
    next notLow =>
      rw [Accumulator.atClose_leaves creeping (Bool.not_eq_true _ ▸ notLow)]
      exact s.countHalfCycle_hand_withOutcome close a _ _

end

theorem State.handQuanta_s3 (s : State) (a : AccId) (quanta : Nat) : (s.handQuanta a quanta).energy.s3 = s.energy.s3 :=
  (s.handQuanta_fed a quanta).s3

/-- Another accumulator finds the record and the configuration that were there before. -/
theorem State.outcomeAt_workAccumulator (close : HandedClose) (s : State) {a i : AccId} (h : i ≠ a) :
    (s.workAccumulator close a).outcomeAt close i = s.outcomeAt close i := by
  rw [State.workAccumulator_eq]
  show ((s.energy.acc.set a _).get i).atClose ((s.handQuanta a _).energy.s3.acc.get i) _ = _
  rw [PerAcc.get_set_ne _ _ h, State.handQuanta_s3]
  rfl

/-- The work of distinct accumulators, in an order: the books of all of them, and the quanta that each hands to its engines. -/
theorem State.foldl_workAccumulator (close : HandedClose) {l : List AccId} (distinct : l.Nodup) (s : State) :
    l.foldl (State.workAccumulator close) s =
      l.foldl (fun t a => t.handQuanta a (s.outcomeAt close a).quanta) (s.withClosed close l) := by
  induction l generalizing s with
  | nil =>
    show s = s.withBooks s.energy.acc { s.journal with waiting := s.journal.waiting ++ [] }
    rw [List.append_nil]
    rfl
  | cons a l ih =>
    obtain ⟨ha, distinct⟩ := List.nodup_cons.mp distinct
    have elsewhere : ∀ i ∈ l, (s.workAccumulator close a).outcomeAt close i = s.outcomeAt close i :=
      fun i hi => s.outcomeAt_workAccumulator close (ne_of_mem_of_not_mem hi ha)
    have records : ((s.workAccumulator close a).withClosed close l).energy.acc = (s.withClosed close (a :: l)).energy.acc := by
      refine PerAcc.ext_get fun i => ?_
      simp only [State.withClosed, State.withBooks, PerAcc.get_mapWith, List.mem_cons]
      by_cases hi : i = a
      · subst hi
        rw [if_neg ha, if_pos (.inl rfl), State.workAccumulator_eq]
        exact PerAcc.get_set_self ..
      · have kept : (s.workAccumulator close a).energy.acc.get i = s.energy.acc.get i := by
          rw [State.workAccumulator_eq]
          exact PerAcc.get_set_ne _ _ hi
        simp only [hi, false_or, kept]
        by_cases hl : i ∈ l
        · rw [if_pos hl, if_pos hl, elsewhere i hl]
        · rw [if_neg hl, if_neg hl]
    have entries : ((s.workAccumulator close a).withClosed close l).journal = (s.withClosed close (a :: l)).journal := by
      have waiting : (l.flatMap fun i => creepEntries close i ((s.workAccumulator close a).outcomeAt close i).gates) =
          l.flatMap fun i => creepEntries close i (s.outcomeAt close i).gates :=
        List.flatMap_congr fun i hi => by rw [elsewhere i hi]
      have first : (s.workAccumulator close a).journal =
          { s.journal with waiting := s.journal.waiting ++ creepEntries close a (s.outcomeAt close a).gates } := by
        rw [State.workAccumulator_eq]; rfl
      simp only [State.withClosed, State.withBooks, waiting, first, List.flatMap_cons, List.append_assoc]
    have books : (s.workAccumulator close a).withClosed close l =
        (s.withClosed close (a :: l)).handQuanta a (s.outcomeAt close a).quanta := by
      calc (s.workAccumulator close a).withClosed close l
          = (s.workAccumulator close a).withBooks (s.withClosed close (a :: l)).energy.acc
              (s.withClosed close (a :: l)).journal := by rw [← records, ← entries]; rfl
        _ = (s.handQuanta a (s.outcomeAt close a).quanta).withBooks (s.withClosed close (a :: l)).energy.acc
              (s.withClosed close (a :: l)).journal := by rw [State.workAccumulator_eq]; rfl
        _ = (s.withClosed close (a :: l)).handQuanta a (s.outcomeAt close a).quanta := (State.handQuanta_withBooks ..).symm
    rw [List.foldl_cons, List.foldl_cons, ih distinct, books]
    exact List.foldl_ext _ _ _ fun t i hi => by rw [elsewhere i hi]

theorem mem_allAccumulators (a : AccId) : a ∈ allAccumulators := by cases a <;> decide

theorem allAccumulators_nodup : allAccumulators.Nodup := by decide

/-- The quanta that a close hands to an engine: those of the accumulator that it is bound to (R110). -/
def State.fedAt (s : State) (close : HandedClose) (e : PulseId) : Nat :=
  ((boundAcc (s.energy.s3.pulse.get e).binding).map fun a => (s.outcomeAt close a).quanta).getD 0

/-- The work of all four at a close: their books, and then each engine handed its quanta. -/
theorem State.foldl_workAccumulator_fed (s : State) (close : HandedClose) :
    Fed (s.fedAt close) (s.withClosed close allAccumulators) (allAccumulators.foldl (State.workAccumulator close) s) := by
  let hand := fun (a : AccId) (e : PulseId) =>
    if boundAcc (s.energy.s3.pulse.get e).binding = some a then (s.outcomeAt close a).quanta else 0
  have total : (fun e => (allAccumulators.map (hand · e)).sum) = s.fedAt close := by
    funext e
    simp only [State.fedAt, hand, allAccumulators]
    cases boundAcc (s.energy.s3.pulse.get e).binding with
    | none => rfl
    | some a => cases a <;> simp
  rw [State.foldl_workAccumulator close allAccumulators_nodup, ← total]
  refine foldl_fed (s3 := s.energy.s3) (fun t a ht => ?_) ?_ rfl
  · simp only [hand, ← ht]
    exact t.handQuanta_fed a _
  · refine allAccumulators_nodup.imp fun {a b} hab e => ?_
    by_cases ha : boundAcc (s.energy.s3.pulse.get e).binding = some a
    · exact .inr (if_neg fun hb => hab (Option.some.inj (ha.symm.trans hb)))
    · exact .inl (if_neg ha)

end Sys2Proof.Machine
end

section
/-! SUPPORT. ENERGY_CLOSE (R109 to R114, R118, R120): the work of all four accumulators, the pulse engines and the pending snapshot as one change of
the state, and the statements on a close. -/

namespace Sys2Proof.Machine

/-! ### A close as one change of the state -/

/-- The entry of a snapshot that completes (R118). -/
def PendingSnapshot.entry (n : PendingSnapshot) (close : HandedClose) (acc : PerAcc Accumulator) : Append :=
  { source := .energyBlock, tick := close.tick, hc := close.summary.hc
    body := .snapshot n.id n.requesters (acc.mapWith fun _ r => r.value) }

/-- The record of a snapshot that completes (R118). -/
def PendingSnapshot.completed (n : PendingSnapshot) (close : HandedClose) (acc : PerAcc Accumulator) : SnapshotRecord :=
  { id := n.id, tick := close.tick, hc := close.summary.hc, requesters := n.requesters, values := acc.mapWith fun _ r => r.value }

/-- The hosts that ask for the pending snapshot, if there is one. -/
def EnergyBlock.requesters (en : EnergyBlock) : HostSet := (en.pendingSnapshot.map PendingSnapshot.requesters).getD noHosts

/-- SNAPSHOT_DONE latched in a session of a mask. -/
def Session.withSnapshotDone (h : HostSet) (p : Port) (y : Session) : Session :=
  if h.get p then { y with latches := { y.latches with snapshotDone := true } } else y

/-- SNAPSHOT_DONE latched in the sessions of a mask. -/
def snapshotDoneIn (h : HostSet) (v : PerPort (Option Session)) : PerPort (Option Session) :=
  v.mapWith fun p z => z.map (Session.withSnapshotDone h p)

theorem snapshotDoneIn_noHosts (v : PerPort (Option Session)) : snapshotDoneIn noHosts v = v :=
  PerPort.mapWith_self v fun p y => by
    rw [Session.withSnapshotDone, noHosts, PerPort.get_all, if_neg Bool.false_ne_true]

/-- A state after a close that leaves these accumulators and engines, with these changes of gates, and with a pulse lost or not. -/
def State.afterClose (s : State) (close : HandedClose) (acc : PerAcc Accumulator) (changes : List Append)
    (engines : PerPulse PulseEngine) (lost : Bool) (draws : Nat) : State :=
  { s with
    energy := { s.energy with
      acc := acc
      engines := engines
      pendingSnapshot := none
      lastSnapshot := (s.energy.pendingSnapshot.map fun n => n.completed close acc).getD s.energy.lastSnapshot
      lastCloseHc := close.summary.hc }
    journal := { s.journal with waiting :=
      s.journal.waiting ++ changes ++ s.energy.pendingSnapshot.toList.map fun n => n.entry close acc }
    sessions := snapshotDoneIn s.energy.requesters (lostIn lost s.sessions)
    draws := draws }

/-- The pending snapshot completes, if there is one. -/
theorem State.completeSnapshot_eq (s : State) (close : HandedClose) : s.completeSnapshot close = { s with
    energy := { s.energy with
      pendingSnapshot := none
      lastSnapshot := (s.energy.pendingSnapshot.map fun n => n.completed close s.energy.acc).getD s.energy.lastSnapshot }
    journal := { s.journal with waiting :=
      s.journal.waiting ++ s.energy.pendingSnapshot.toList.map fun n => n.entry close s.energy.acc }
    sessions := snapshotDoneIn s.energy.requesters s.sessions } := by
  cases h : s.energy.pendingSnapshot with
  | none =>
    have unasked : s.energy.requesters = noHosts := by simp only [EnergyBlock.requesters, h, Option.map_none, Option.getD_none]
    have kept : s.completeSnapshot close = s := by simp only [State.completeSnapshot, h]
    have energy : { s.energy with pendingSnapshot := none } = s.energy := by rw [← h]
    rw [kept, unasked, snapshotDoneIn_noHosts]
    simp only [Option.map_none, Option.getD_none, Option.toList_none, List.map_nil, List.append_nil, energy]
  | some n =>
    have asked : s.energy.requesters = n.requesters := by simp only [EnergyBlock.requesters, h, Option.map_some, Option.getD_some]
    simp only [State.completeSnapshot, h, asked]
    rfl

/-- The four records after a close. -/
def State.accAfter (s : State) (close : HandedClose) : PerAcc Accumulator :=
  s.energy.acc.mapWith fun a _ => (s.outcomeAt close a).record

/-- The CREEP_CHANGE entries of a close. -/
def State.creepChanges (s : State) (close : HandedClose) : List Append :=
  allAccumulators.flatMap fun a => creepEntries close a (s.outcomeAt close a).gates

/-- What a close makes of the state: all but the engines, the lost pulses and the values drawn is fixed, and of the engines each is handed its
quanta. -/
theorem State.takeEnergyClose_eq (s : State) (close : HandedClose) :
    ∃ (engines : PerPulse PulseEngine) (lost : PulseId → Nat) (draws : Nat),
      s.takeEnergyClose close =
        s.afterClose close (s.accAfter close) (s.creepChanges close) engines (lost .p0 + lost .p1 != 0) draws
      ∧ (∀ e, (s.energy.engines.get e).Hands (s.energy.s3.pulse.get e) s.front.tick (s.fedAt close e) (engines.get e) (lost e))
      ∧ ((∀ e, s.fedAt close e = 0) → engines = s.energy.engines ∧ draws = s.draws) := by
  let w := allAccumulators.foldl (State.workAccumulator close) s
  have fed : Fed (s.fedAt close) (s.withClosed close allAccumulators) w := s.foldl_workAccumulator_fed close
  obtain ⟨lost, draws, hw, hands⟩ := fed.lines
  refine ⟨w.energy.engines, lost, draws, ?_, hands, fun unfed => ?_⟩
  · have books : s.withClosed close allAccumulators = s.withBooks (s.accAfter close)
        { s.journal with waiting := s.journal.waiting ++ s.creepChanges close } := by
      simp only [State.withClosed, mem_allAccumulators, if_true]
      rfl
    rw [books] at hw
    show { w.completeSnapshot close with energy := { (w.completeSnapshot close).energy with lastCloseHc := close.summary.hc } } = _
    rw [State.completeSnapshot_eq, hw]
    rfl
  · have same := fed.nothing unfed
    rw [same] at hw ⊢
    exact ⟨rfl, (congrArg State.draws hw).symm⟩

/-- ENERGY_CLOSE takes the oldest summary handed to the block. -/
theorem exec_energyClose {s : State} {close : HandedClose} {rest : List HandedClose} (hrun : s.pins.resetLow = false)
    (hin : s.energy.closes = close :: rest) :
    exec .energyClose s = .next (State.takeEnergyClose { s with energy := { s.energy with closes := rest } } close).drive := by
  show execEnergyClose s = _
  simp only [execEnergyClose, State.whenRunning_of_running hrun, hin]

/-- Settles O34: the table of 6.3 row by row, by the accumulator's own record. -/
theorem creepGate : Obligations.CreepGate := by
  intro s close rest hrun hin x
  let u : State := { s with energy := { s.energy with closes := rest } }
  obtain ⟨engines, lost, draws, taken, -, -⟩ := u.takeEnergyClose_eq close
  refine ⟨_, fun a => (s.outcomeAt close a).gates, (exec_energyClose hrun hin).trans (by rw [taken]), fun a => ?_, rfl, fun hn => ?_, rfl⟩
  · intro cfg src r isLow total quanta counts becomes
    have record : (u.accAfter close).get a = (r.atClose cfg x).record := PerAcc.get_mapWith ..
    have outcome : ∀ o, r.atClose cfg x = o → becomes o.record o.gates := by
      rintro o rfl
      exact ⟨record, rfl⟩
    have low : isLow → lowHalfCycle cfg x = true := (lowHalfCycle_iff cfg x).mpr
    have high : ¬ isLow → lowHalfCycle cfg x = false := fun h =>
      Bool.eq_false_iff.mpr fun hl => h ((lowHalfCycle_iff cfg x).mp hl)
    exact ⟨fun hg => outcome _ (Accumulator.atClose_fault hg),
      fun hg hl => outcome _ (Accumulator.atClose_running hg (high hl)),
      fun hg hl hr => outcome _ (Accumulator.atClose_lowering hg (low hl) hr),
      fun hg hl hr => outcome _ (Accumulator.atClose_enters hg (low hl) hr),
      fun hg hl => outcome _ (Accumulator.atClose_creeping hg (low hl)),
      fun hg hl => outcome _ (Accumulator.atClose_leaves hg (high hl))⟩
  · have unasked : u.energy.pendingSnapshot = none := hn
    refine ⟨rfl, ?_⟩
    show (u.energy.pendingSnapshot.map _).getD u.energy.lastSnapshot = _
    rw [unasked]
    rfl

end Sys2Proof.Machine
end

section
/-! SUPPORT. What the statements on a close read off it: the sources and directions by their codes, the quanta of every gate, a close without
bound engines (R109 to R111, R114, R118, R120). -/

namespace Sys2Proof.Machine

/-! ### Sources and directions (R109) -/

theorem EnergySource.ofCode_table (x : Summary) {code : W16} (h : code.toNat ≤ 7) :
    ((EnergySource.ofCode code).average x, (EnergySource.ofCode code).divider) =
      [(x.pA, 230400), (x.pB, 230400), (x.qA, 230400), (x.qB, 230400), (x.sA, 230400), (x.sB, 230400), ((x.iaRms : Int), 2304000),
        ((1 : Int), 6400)].getD code.toNat (0, 0) := by
  obtain ⟨n, hn⟩ : ∃ n, n = code.toNat := ⟨_, rfl⟩
  obtain rfl : code = BitVec.ofNat 16 n := by rw [hn, BitVec.ofNat_toNat, BitVec.setWidth_eq]
  rw [← hn] at h
  interval_cases n <;> rfl

theorem EnergyDirection.counted_imported (c : Int) : EnergyDirection.imported.counted c = max c 0 := by
  show (if 0 ≤ c then c else 0) = _
  omega

theorem EnergyDirection.counted_exported (c : Int) : EnergyDirection.exported.counted c = max (-c) 0 := by
  show (if 0 ≤ c then 0 else -c) = _
  omega

theorem EnergyDirection.counted_absolute (c : Int) : EnergyDirection.absolute.counted c = max c (-c) := by
  show (if 0 ≤ c then c else -c) = _
  omega

theorem EnergyDirection.ofCode_table (c : Int) {code : W16} (h : code.toNat ≤ 3) :
    (EnergyDirection.ofCode code).counted c = [max c 0, max (-c) 0, c, max c (-c)].getD code.toNat 0 := by
  obtain ⟨n, hn⟩ : ∃ n, n = code.toNat := ⟨_, rfl⟩
  obtain rfl : code = BitVec.ofNat 16 n := by rw [hn, BitVec.ofNat_toNat, BitVec.setWidth_eq]
  rw [← hn] at h
  interval_cases n
  · exact EnergyDirection.counted_imported c
  · exact EnergyDirection.counted_exported c
  · rfl
  · exact EnergyDirection.counted_absolute c

/-! ### The quanta of a close (R110) -/

/-- Which gates count: RUNNING but where it enters CREEP, and CREEP where it returns to RUNNING. -/
theorem Accumulator.atClose_quanta (cfg : AccCfg) (x : Summary) (r : Accumulator) : (r.atClose cfg x).quanta =
    if (r.gate = .running ∧ (lowHalfCycle cfg x = false ∨ r.creepRun + 1 < cfg.creepCount.toNat))
      ∨ (r.gate = .creep ∧ lowHalfCycle cfg x = false) then (r.counted cfg x).2.natAbs else 0 := by
  cases hg : r.gate with
  | fault => rw [Accumulator.atClose_fault hg, if_neg (by simp)]; rfl
  | running =>
    cases hl : lowHalfCycle cfg x with
    | false => rw [Accumulator.atClose_running hg hl, if_pos (.inl ⟨rfl, .inl rfl⟩)]; rfl
    | true =>
      rcases Nat.lt_or_ge (r.creepRun + 1) cfg.creepCount.toNat with hr | hr
      · rw [Accumulator.atClose_lowering hg hl hr, if_pos (.inl ⟨rfl, .inr hr⟩)]; rfl
      · rw [Accumulator.atClose_enters hg hl hr, if_neg (by simpa using hr)]
  | creep =>
    cases hl : lowHalfCycle cfg x with
    | false => rw [Accumulator.atClose_leaves hg hl, if_pos (.inr ⟨rfl, rfl⟩)]; rfl
    | true => rw [Accumulator.atClose_creeping hg hl, if_neg (by simp)]; rfl

/-! ### Sessions after a close -/

section
variable (s : State) (close : HandedClose) (acc : PerAcc Accumulator) (changes : List Append) (engines : PerPulse PulseEngine)
  (lost : Bool) (draws : Nat)

theorem State.afterClose_session (p : Port) : (s.afterClose close acc changes engines lost draws).session p =
    (s.session p).map fun z => Session.withSnapshotDone s.energy.requesters p (z.withLost lost) := by
  refine (PerPort.get_mapWith ..).trans ?_
  rw [lostIn, PerPort.get_mapWith, Option.map_map]
  rfl

theorem Session.withSnapshotDone_pulseLost (h : HostSet) (p : Port) (y : Session) :
    (Session.withSnapshotDone h p y).latches.pulseLost = y.latches.pulseLost := by
  unfold Session.withSnapshotDone
  split <;> rfl

theorem Session.withSnapshotDone_snapshotDone (h : HostSet) (p : Port) (y : Session) :
    (Session.withSnapshotDone h p y).latches.snapshotDone = (y.latches.snapshotDone || h.get p) := by
  unfold Session.withSnapshotDone
  split
  next hp => rw [hp, Bool.or_true]
  next hp => rw [Bool.eq_false_iff.mpr hp, Bool.or_false]

/-- A close changes of a session two latches. -/
theorem Session.afterClose_frame (h : HostSet) (p : Port) (z : Session) :
    Session.withSnapshotDone h p (z.withLost lost) = { z with latches := { z.latches with
      pulseLost := (z.withLost lost).latches.pulseLost
      snapshotDone := (Session.withSnapshotDone h p (z.withLost lost)).latches.snapshotDone } } := by
  unfold Session.withSnapshotDone
  split <;> rfl

/-! ### A close without bound engines -/

variable {s close}

theorem State.afterClose_unasked (h : s.energy.pendingSnapshot = none) :
    s.afterClose close acc [] s.energy.engines false s.draws =
      { s with energy := { s.energy with acc := acc, lastCloseHc := close.summary.hc } } := by
  have unasked : s.energy.requesters = noHosts := by rw [EnergyBlock.requesters, h]; rfl
  simp only [State.afterClose, unasked, snapshotDoneIn_noHosts, lostIn_false, h, Option.map_none, Option.getD_none,
    Option.toList_none, List.map_nil, List.append_nil]

theorem State.afterClose_asked {n : PendingSnapshot} (h : s.energy.pendingSnapshot = some n) :
    s.afterClose close acc changes engines lost draws = { s with
      energy := { s.energy with
        acc := acc
        engines := engines
        pendingSnapshot := none
        lastSnapshot := n.completed close acc
        lastCloseHc := close.summary.hc }
      journal := { s.journal with waiting := s.journal.waiting ++ changes ++ [n.entry close acc] }
      sessions := snapshotDoneIn n.requesters (lostIn lost s.sessions)
      draws := draws } := by
  have asked : s.energy.requesters = n.requesters := by rw [EnergyBlock.requesters, h]; rfl
  simp only [State.afterClose, asked, h, Option.map_some, Option.getD_some, Option.toList_some, List.map_cons, List.map_nil]

end

/-- Nothing is lost, and no value drawn, where no engine is handed quanta. -/
theorem exec_energyClose_unfed {s : State} {close : HandedClose} {rest : List HandedClose} (hrun : s.pins.resetLow = false)
    (hin : s.energy.closes = close :: rest) (unfed : ∀ e, s.fedAt close e = 0) :
    let u : State := { s with energy := { s.energy with closes := rest } }
    exec .energyClose s = .next (u.afterClose close (s.accAfter close) (s.creepChanges close) s.energy.engines false s.draws).drive := by
  intro u
  obtain ⟨engines, lost, draws, taken, hands, nothing⟩ := u.takeEnergyClose_eq close
  obtain ⟨rfl, rfl⟩ := nothing unfed
  have none_lost : ∀ e, lost e = 0 := fun e => (hands e).loses_none fun fed => absurd (unfed e) fed
  rw [exec_energyClose hrun hin, taken, none_lost, none_lost]
  rfl

section
variable {s : State} {close : HandedClose}

/-- With every gate in FAULT a close leaves every record, enters no gate and moves no quanta (R114). -/
theorem State.close_faulted (h : ∀ a, (s.energy.acc.get a).gate = .fault) :
    s.accAfter close = s.energy.acc ∧ s.creepChanges close = [] ∧ ∀ e, s.fedAt close e = 0 := by
  have outcome : ∀ a, s.outcomeAt close a = .unmoved (s.energy.acc.get a) := fun a => Accumulator.atClose_fault (h a)
  refine ⟨PerAcc.ext_get fun a => ?_, ?_, fun e => ?_⟩
  · rw [State.accAfter, PerAcc.get_mapWith, outcome]; rfl
  · exact List.flatMap_eq_nil_iff.mpr fun a _ => by rw [outcome]; rfl
  · simp only [State.fedAt, outcome, CloseOutcome.unmoved]
    cases boundAcc (s.energy.s3.pulse.get e).binding <;> rfl

/-- With every gate RUNNING and no average low a close counts everywhere (R111). -/
theorem State.close_counting (h : ∀ a, (s.energy.acc.get a).gate = .running
      ∧ lowHalfCycle (s.energy.s3.acc.get a) close.summary = false) :
    s.accAfter close =
        s.energy.acc.mapWith (fun a r => (Accumulator.counted (s.energy.s3.acc.get a) close.summary { r with creepRun := 0 }).1)
      ∧ s.creepChanges close = [] := by
  have outcome : ∀ a, s.outcomeAt close a =
      .counts (s.energy.s3.acc.get a) close.summary { s.energy.acc.get a with creepRun := 0 } [] :=
    fun a => Accumulator.atClose_running (h a).1 (h a).2
  refine ⟨PerAcc.ext_get fun a => ?_, ?_⟩
  · rw [State.accAfter, PerAcc.get_mapWith, PerAcc.get_mapWith, outcome]; rfl
  · exact List.flatMap_eq_nil_iff.mpr fun a _ => by rw [outcome]; rfl

theorem State.fedAt_unbound {e : PulseId} (h : boundAcc (s.energy.s3.pulse.get e).binding = none) : s.fedAt close e = 0 := by
  rw [State.fedAt, h]; rfl

end

/-- Settles O33: the tables by code, then the close in each of the four cases, and a pending snapshot in any. -/
theorem energyCloseCounts : Obligations.EnergyCloseCounts := by
  refine ⟨fun x code => EnergySource.ofCode_table x, fun c code => EnergyDirection.ofCode_table c, ?_⟩
  intro s close rest hrun hin x en src
  let u : State := { s with energy := { s.energy with closes := rest } }
  have counting : (∀ a, (en.acc.get a).gate = .running ∧
        ((src a) = .time ∨ (en.s3.acc.get a).creepLevel.toNat ≤ ((src a).average x).natAbs)) →
      s.accAfter close =
          s.energy.acc.mapWith (fun a r => (Accumulator.counted (s.energy.s3.acc.get a) close.summary { r with creepRun := 0 }).1)
        ∧ s.creepChanges close = [] := fun h =>
    State.close_counting fun a => ⟨(h a).1, (lowHalfCycle_eq_false_iff _ _).mpr (h a).2⟩
  refine ⟨fun h unbound hn => ?_, fun h hn => ?_, fun n h unbound hn => ?_, fun n h hn => ?_, fun n hn => ?_⟩
  · obtain ⟨records, changes⟩ := counting h
    rw [exec_energyClose_unfed hrun hin fun e => State.fedAt_unbound (unbound e), records, changes,
      State.afterClose_unasked (s := u) _ hn]
    rfl
  · obtain ⟨records, changes, unfed⟩ := State.close_faulted (close := close) h
    rw [exec_energyClose_unfed hrun hin unfed, records, changes, State.afterClose_unasked (s := u) _ hn]
  · intro acc values
    obtain ⟨records, changes⟩ := counting h
    rw [exec_energyClose_unfed hrun hin fun e => State.fedAt_unbound (unbound e), records, changes,
      State.afterClose_asked (s := u) (h := hn),
      lostIn_false, List.append_nil]
    rfl
  · intro values
    obtain ⟨records, changes, unfed⟩ := State.close_faulted (close := close) h
    rw [exec_energyClose_unfed hrun hin unfed, records, changes, State.afterClose_asked (s := u) (h := hn),
      lostIn_false, List.append_nil]
    rfl
  · obtain ⟨engines, lost, draws, taken, -, -⟩ := u.takeEnergyClose_eq close
    have asked : u.energy.pendingSnapshot = some n := hn
    have done := exec_energyClose hrun hin
    rw [taken, State.afterClose_asked (h := asked)] at done
    refine ⟨_, done, rfl, rfl, ⟨s.creepChanges close, rfl⟩, fun p z hz =>
      ⟨Session.withSnapshotDone n.requesters p (z.withLost (lost .p0 + lost .p1 != 0)), ?_,
        Session.withSnapshotDone_snapshotDone ..⟩⟩
    have sessions : s.sessions.get p = some z := hz
    refine (PerPort.get_mapWith ..).trans ?_
    rw [lostIn, PerPort.get_mapWith, sessions]
    rfl

/-! ### The phases of a pulse line (R121) -/

section
variable {s : State} {e : PulseId} {width : Nat} {due : W32} (hrun : s.pins.resetLow = false) (hdue : reached s.front.tick due = true)
include hrun hdue

theorem exec_pulseHighEnd (hx : (s.energy.engines.get e).phase = .high width due) :
    exec (.pulseHighEnd e) s = .next (s.setEngine e
      { s.energy.engines.get e with phase := .gap width (s.front.tick + BitVec.ofNat 32 width) }).drive := by
  have due_reached : reached s.nowTick due = true := hdue
  show execPulseHighEnd e s = _
  refine State.whenRunning_eq hrun ?_
  simp only [hx, due_reached, if_true]
  rfl

theorem exec_pulseGapEnd (hx : (s.energy.engines.get e).phase = .gap width due) :
    exec (.pulseGapEnd e) s = .next (s.setEngine e
      ((s.energy.engines.get e).afterGap (s.energy.s3.pulse.get e).width.toNat s.front.tick)).drive := by
  have due_reached : reached s.nowTick due = true := hdue
  show execPulseGapEnd e s = _
  refine State.whenRunning_eq hrun ?_
  simp only [hx, due_reached, if_true]
  rfl

end

theorem PulseEngine.afterGap_idle {x : PulseEngine} (h : x.pending = 0) (width : Nat) (now : W32) :
    x.afterGap width now = { x with phase := .idle } := if_pos h

theorem PulseEngine.afterGap_starts {x : PulseEngine} (h : 1 ≤ x.pending) (width : Nat) (now : W32) :
    x.afterGap width now = { x with pending := x.pending - 1, phase := .high width (now + BitVec.ofNat 32 width) } :=
  if_neg (Nat.ne_of_gt h)

/-- Settles O35: each engine by what the hand of its accumulator's quanta can make of it, and the two ends of a phase. -/
theorem pulsesOwedAndPhases : Obligations.PulsesOwedAndPhases := by
  refine ⟨?close, fun s e width due hrun hx hdue => exec_pulseHighEnd hrun hdue hx, ?gap⟩
  case gap =>
    intro s e width due hrun hx hdue x fresh started
    refine ⟨fun h => ?_, fun h => ?_⟩
    · rw [exec_pulseGapEnd hrun hdue hx, PulseEngine.afterGap_idle h]; rfl
    · rw [exec_pulseGapEnd hrun hdue hx, PulseEngine.afterGap_starts h]; rfl
  case close =>
    intro s close rest hrun hin _ sum average counted moved fed wanted
    let u : State := { s with energy := { s.energy with closes := rest } }
    have hmoved : ∀ a, (s.outcomeAt close a).quanta = moved a := by
      intro a
      have low : ∀ cfg, lowHalfCycle cfg sum = decide (EnergySource.ofCode cfg.source ≠ .time
          ∧ ((EnergySource.ofCode cfg.source).average sum).natAbs < cfg.creepLevel.toNat) :=
        fun cfg => Bool.eq_iff_iff.mpr ((lowHalfCycle_iff cfg sum).trans decide_eq_true_iff.symm)
      refine (Accumulator.atClose_quanta ..).trans ?_
      simp only [moved, counted, decide_eq_true_iff (p := _ ∨ _), average, ← low]
      rfl
    have hfed : ∀ e, s.fedAt close e = fed e := fun e => by simp only [State.fedAt, hmoved, fed]
    obtain ⟨engines, lost, draws, taken, hands, -⟩ := u.takeEnergyClose_eq close
    have hands : ∀ e, (s.energy.engines.get e).Hands (s.energy.s3.pulse.get e) s.front.tick (fed e) (engines.get e) (lost e) :=
      fun e => hfed e ▸ hands e
    let anyLost := lost .p0 + lost .p1 != 0
    let t := (u.afterClose close (u.accAfter close) (u.creepChanges close) engines anyLost draws).drive
    have session : ∀ p, t.session p =
        (s.session p).map fun z => Session.withSnapshotDone s.energy.requesters p (z.withLost anyLost) :=
      State.afterClose_session u close (u.accAfter close) (u.creepChanges close) engines anyLost draws
    refine ⟨t, (exec_energyClose hrun hin).trans (by rw [taken]), fun e h => ?_, fun e h => ?_, fun p hp => ?_,
      fun p z hz => ⟨Session.withSnapshotDone s.energy.requesters p (z.withLost anyLost), ?_, ?_⟩⟩
    · have hand := hands e
      rw [h] at hand
      exact hand.of_zero.1
    · intro pulse x y
      obtain ⟨draw, hy, -⟩ := (hands e).fed h
      have hy : y = (x.fed pulse (fed e) s.front.tick draw).1 := hy
      refine ⟨?_, fun hx => ?_, fun hx h0 => ?_, fun hx h1 => ?_, fun hx h1 h15 => ?_, fun hx h16 => ?_⟩
      · rw [hy, PulseEngine.fed_residue]
      · rw [hy, PulseEngine.fed_busy hx]
        exact ⟨rfl, rfl, rfl⟩
      · rw [hy, PulseEngine.fed_nothing hx h0]
      · rcases Nat.lt_or_ge (wanted e) 16 with h15 | h16
        · rw [hy, PulseEngine.fed_starts hx h1 (Nat.le_of_lt_succ h15)]; rfl
        · obtain ⟨first, -, hf⟩ := PulseEngine.fed_overflows (now := s.front.tick) (draw := draw) hx h16
          rw [hy, hf]; rfl
      · rw [hy, PulseEngine.fed_starts hx h1 h15]
        exact ⟨rfl, rfl⟩
      · obtain ⟨first, hle, hf⟩ := PulseEngine.fed_overflows (now := s.front.tick) (draw := draw) hx h16
        rw [hy, hf]
        exact ⟨first, hle, rfl, rfl⟩
    · rw [session, hp]; rfl
    · rw [session, hz]; rfl
    · rw [Session.withSnapshotDone_pulseLost]
      refine ⟨fun h => ?_, fun ⟨e, h, hw⟩ => ?_, Session.afterClose_frame ..⟩
      · have none_lost : ∀ e, lost e = 0 := fun e => (hands e).loses_none (h e)
        have no_loss : anyLost = false := by simp only [anyLost, none_lost]; rfl
        rw [no_loss]
        exact Bool.or_false _
      · obtain ⟨draw, -, hl⟩ := (hands e).fed h
        have some_lost : lost e ≠ 0 := hl ▸ PulseEngine.fed_loses hw
        have any_lost : anyLost = true := by
          refine bne_iff_ne.mpr ?_
          cases e <;> omega
        rw [any_lost]
        exact Bool.or_true _

end Sys2Proof.Machine
end

section
/-! SUPPORT. The integrity fault, a committed S3 and a scrub pass (R108, R114, R123, R124, R147), and the requests on the Energy Block
(R115, R117, R119, R122). -/

namespace Sys2Proof.Machine

/-! ### Accumulators redefined (R123) -/

/-- An accumulator as it is zeroed (R123). -/
def Accumulator.zeroed (hc : W32) : Accumulator := { value := 0, residue := 0, gate := .running, creepRun := 0, lastHc := hc }

/-- A session with its baselines for some accumulators zeroed. -/
def Session.withZeroedBaselines (zero : AccId → Bool) (x : Session) : Session :=
  { x with baselines := x.baselines.mapWith fun a b => if zero a then 0 else b }

/-- A state with some accumulators zeroed, and every session's baselines for them. -/
def State.withZeroed (s : State) (zero : AccId → Bool) : State :=
  { s with
    energy := { s.energy with acc := s.energy.acc.mapWith fun a r => if zero a then .zeroed s.front.hc else r }
    sessions := s.sessions.mapWith fun _ z => z.map (Session.withZeroedBaselines zero) }

theorem State.withZeroed_none (s : State) : s.withZeroed (fun _ => false) = s := by
  have sessions : (s.sessions.mapWith fun _ z => z.map (Session.withZeroedBaselines fun _ => false)) = s.sessions :=
    PerPort.mapWith_self s.sessions fun _ _ => rfl
  rw [State.withZeroed, sessions]
  rfl

theorem ite_ite_eq_ite_or {α : Type} (b c : Bool) (x y : α) :
    (if c then x else if b then x else y) = if b || c then x else y := by
  cases b <;> cases c <;> rfl

theorem State.withZeroed_withZeroed (s : State) (f g : AccId → Bool) :
    (s.withZeroed f).withZeroed g = s.withZeroed fun a => f a || g a := by
  have records : ((s.withZeroed f).withZeroed g).energy.acc = (s.withZeroed fun a => f a || g a).energy.acc := by
    refine PerAcc.ext_get fun a => ?_
    simp only [State.withZeroed, PerAcc.get_mapWith, ite_ite_eq_ite_or]
  have baselines : ∀ x, Session.withZeroedBaselines g (Session.withZeroedBaselines f x) =
      Session.withZeroedBaselines (fun a => f a || g a) x := by
    intro x
    simp only [Session.withZeroedBaselines]
    congr 1
    refine PerAcc.ext_get fun a => ?_
    simp only [PerAcc.get_mapWith, ite_ite_eq_ite_or]
  have sessions : ((s.withZeroed f).withZeroed g).sessions = (s.withZeroed fun a => f a || g a).sessions := by
    refine (PerPort.mapWith_mapWith s.sessions (fun _ => Session.withZeroedBaselines f)
      fun _ => Session.withZeroedBaselines g).trans ?_
    simp only [baselines]
    rfl
  calc (s.withZeroed f).withZeroed g
      = { s with energy := { s.energy with acc := ((s.withZeroed f).withZeroed g).energy.acc }
                 sessions := ((s.withZeroed f).withZeroed g).sessions } := rfl
    _ = _ := by rw [records, sessions]; rfl

theorem State.zeroAccumulator_eq (s : State) (a : AccId) : s.zeroAccumulator a = s.withZeroed fun i => decide (i = a) := by
  have set_eq : ∀ {α : Type} (v : PerAcc α) (y : α), v.set a y = v.mapWith fun i x => if decide (i = a) then y else x := by
    intro α v y
    refine PerAcc.ext_get fun i => ?_
    simp only [PerAcc.get_set, PerAcc.get_mapWith, decide_eq_true_iff]
  simp only [State.zeroAccumulator, State.setAcc, State.onSessions, set_eq]
  rfl

/-- The accumulators of a list that are redefined, zeroed one after another. -/
theorem State.foldl_zeroAccumulator (p : AccId → Bool) (l : List AccId) (s : State) :
    l.foldl (fun t a => if p a then t.zeroAccumulator a else t) s = s.withZeroed fun i => decide (i ∈ l) && p i := by
  induction l generalizing s with
  | nil => simpa using s.withZeroed_none.symm
  | cons a l ih =>
    have first : (if p a then s.zeroAccumulator a else s) = s.withZeroed fun i => decide (i = a) && p i := by
      cases hp : p a with
      | true =>
        rw [if_pos rfl, State.zeroAccumulator_eq]
        congr 1
        funext i
        by_cases hi : i = a
        · simp [hi, hp]
        · simp [hi]
      | false =>
        rw [if_neg Bool.false_ne_true]
        have none : (fun i => decide (i = a) && p i) = fun _ => false := by
          funext i
          by_cases hi : i = a
          · simp [hi, hp]
          · simp [hi]
        rw [none, State.withZeroed_none]
    rw [List.foldl_cons, first, ih, State.withZeroed_withZeroed]
    congr 1
    funext i
    simp only [List.mem_cons, Bool.decide_or, Bool.and_or_distrib_right]

/-! ### A committed S3 (R108, R114, R124) -/

/-- A committed S3 as one change of the state. -/
theorem State.takeS3_eq (s : State) (new : EnergyCfg) : s.takeS3 new =
    { s with
      energy := { s.energy with
        s3 := new
        acc := s.energy.acc.mapWith fun a r =>
          if redefined s.energy.s3 new a then .zeroed s.front.hc else r.faultCleared
        engines := s.energy.engines.mapWith fun e x => if engineCleared s.energy.s3 new e then x.cleared else x }
      sessions := s.sessions.mapWith fun _ z => z.map (Session.withZeroedBaselines (redefined s.energy.s3 new)) } := by
  have all : (fun i => decide (i ∈ allAccumulators) && redefined s.energy.s3 new i) = redefined s.energy.s3 new := by
    funext i
    rw [decide_eq_true (mem_allAccumulators i), Bool.true_and]
  have freed : (s.withZeroed (redefined s.energy.s3 new)).energy.acc.mapWith (fun _ r => r.faultCleared) =
      s.energy.acc.mapWith fun a r => if redefined s.energy.s3 new a then .zeroed s.front.hc else r.faultCleared := by
    refine PerAcc.ext_get fun a => ?_
    simp only [State.withZeroed, PerAcc.get_mapWith]
    cases redefined s.energy.s3 new a <;> rfl
  rw [State.takeS3, State.foldl_zeroAccumulator, all, freed]
  rfl

theorem redefined_eq (old new : EnergyCfg) (a : AccId) : redefined old new a =
    decide ((old.acc.get a).source ≠ (new.acc.get a).source ∨ (old.acc.get a).direction ≠ (new.acc.get a).direction) := by
  rw [Bool.eq_iff_iff, decide_eq_true_iff, redefined, Bool.or_eq_true, bne_iff_ne, bne_iff_ne]

/-- Which engines a committed S3 clears (R123, R124). -/
theorem engineCleared_iff (old new : EnergyCfg) (e : PulseId) : engineCleared old new e = true ↔
    (old.pulse.get e).binding ≠ (new.pulse.get e).binding ∨ (old.pulse.get e).k ≠ (new.pulse.get e).k
      ∨ ∃ a, redefined old new a = true
        ∧ (boundAcc (old.pulse.get e).binding = some a ∨ boundAcc (new.pulse.get e).binding = some a) := by
  have bound : engineCleared old new e = ((old.pulse.get e).binding != (new.pulse.get e).binding
      || (old.pulse.get e).k != (new.pulse.get e).k || (boundAcc (old.pulse.get e).binding).any (redefined old new)
      || (boundAcc (new.pulse.get e).binding).any (redefined old new)) := by
    simp only [engineCleared]
    cases boundAcc (old.pulse.get e).binding <;> cases boundAcc (new.pulse.get e).binding <;> rfl
  simp only [bound, Bool.or_eq_true, bne_iff_ne, Option.any_eq_true, and_or_left, exists_or, or_assoc, and_comm]

theorem exec_energyConfig {s : State} {new : EnergyCfg} {rest : List EnergyEvent} (hrun : s.pins.resetLow = false)
    (hin : s.energy.handed = .config new :: rest) :
    exec .energyConfig s = .next (State.takeS3 { s with energy := { s.energy with handed := rest } } new).drive := by
  show execEnergyConfig s = _
  simp only [execEnergyConfig, State.whenRunning_of_running hrun, hin]

theorem exec_energyFault {s : State} {rest : List EnergyEvent} (hrun : s.pins.resetLow = false)
    (hin : s.energy.handed = .fault :: rest) :
    exec .energyFault s = .next (State.freezeEnergy { s with energy := { s.energy with handed := rest } }).drive := by
  show execEnergyFault s = _
  simp only [execEnergyFault, State.whenRunning_of_running hrun, hin]

/-- Settles O36: the fault freezes, a pulse runs out, and a committed S3 is one change of the state. -/
theorem energyConfigAndFault : Obligations.EnergyConfigAndFault := by
  refine ⟨fun s rest hrun hin => exec_energyFault hrun hin, ?phases, ?config⟩
  case phases =>
    intro s e width due hrun hdue ends
    refine ⟨fun hx => exec_pulseHighEnd hrun hdue hx, fun hx h => ?_⟩
    rw [exec_pulseGapEnd hrun hdue hx, PulseEngine.afterGap_idle h]
    rfl
  case config =>
    intro s new rest hrun hin old zeroed cleared
    have hzeroed : redefined old new = zeroed := funext (redefined_eq old new)
    have hcleared : ∀ e, engineCleared old new e = true ↔ cleared e := fun e => by
      rw [engineCleared_iff, hzeroed]
    have taken := State.takeS3_eq { s with energy := { s.energy with handed := rest } } new
    refine ⟨_, (exec_energyConfig hrun hin).trans (by rw [taken]), fun a h => ?_, fun a h => ?_, fun e h => ?_, fun e h => ?_,
      fun p hp => ?_, fun p x hx => ?_, rfl⟩
    · refine (PerAcc.get_mapWith ..).trans (if_pos ?_)
      exact (congrFun hzeroed a).trans h
    · refine (PerAcc.get_mapWith ..).trans (if_neg ?_)
      exact Bool.eq_false_iff.mp ((congrFun hzeroed a).trans h)
    · exact (PerPulse.get_mapWith ..).trans (if_pos ((hcleared e).mpr h))
    · exact (PerPulse.get_mapWith ..).trans (if_neg fun k => h ((hcleared e).mp k))
    · have closed : s.sessions.get p = none := hp
      refine (PerPort.get_mapWith ..).trans ?_
      rw [closed]
      rfl
    · have opened : s.sessions.get p = some x := hx
      refine (PerPort.get_mapWith ..).trans ?_
      rw [opened, ← hzeroed]
      rfl

/-! ### The scrub (R147) -/

theorem State.scrub_matches {s : State} (h : s.config.committed.code = s.config.code ∨ s.config.fault = true) :
    s.scrub = { s with config := { s.config with nextScrub := s.config.nextScrub + 100 } } := by
  simp only [State.scrub, if_pos h]
  rfl

theorem State.scrub_mismatch {s : State} (hcode : s.config.committed.code ≠ s.config.code) (hfault : s.config.fault = false) :
    s.scrub = { s with
      config := { s.config with nextScrub := s.config.nextScrub + 100, fault := true }
      journal := { s.journal with waiting := s.journal.waiting ++
        ([⟨.configController, s.front.tick, s.front.hc, .integrityFault s.config.generation⟩] : List Append) }
      energy := { s.energy with handed := s.energy.handed ++ ([.fault] : List EnergyEvent) } } := by
  have mismatch : ¬ (s.config.committed.code = s.config.code ∨ s.config.fault = true) :=
    not_or.mpr ⟨hcode, Bool.eq_false_iff.mp hfault⟩
  simp only [State.scrub, if_neg mismatch]
  rfl

theorem exec_integrityScrub {s : State} (hrun : s.pins.resetLow = false) (hdue : reached s.front.tick s.config.nextScrub = true) :
    exec .integrityScrub s = .next s.scrub.drive := by
  show execIntegrityScrub s = _
  exact State.whenRunning_eq hrun (if_pos hdue)

/-- Settles O41: a match and a mismatch. -/
theorem integrityScrub : Obligations.IntegrityScrub := by
  intro s hrun hdue next
  refine ⟨fun h => ?_, fun hcode hfault => ?_⟩
  · rw [exec_integrityScrub hrun hdue, State.scrub_matches h]
  · rw [exec_integrityScrub hrun hdue, State.scrub_mismatch hcode hfault]

/-! ### The requests on the Energy Block (R115, R117, R119, R122) -/

theorem accBytes_eq (v : PerAcc W48) : accBytes v = allAccumulators.flatMap fun a => be48 (v.get a) := by
  simp only [accBytes, allAccumulators, List.flatMap_cons, List.flatMap_nil, List.append_nil, List.append_assoc]
  rfl

theorem State.latch_setSession (s : State) (p : Port) (y : Session) (f : Latches → Latches) :
    (s.setSession p (some y)).latch p f = s.setSession p (some { y with latches := f y.latches }) := by
  simp only [State.latch, State.onSession, State.setSession, PerPort.get_set_self, PerPort.set_set, Option.map_some]

section
variable {s : State} {p : Port} {x : Session} {mask : Byte}

theorem reqMarkBaseline_badMask (hx : s.session p = some x) (h : mask = 0 ∨ mask &&& 0xF0 ≠ 0) :
    reqMarkBaseline p mask s = (s, Reply.refuse .badValue) := by
  rw [reqMarkBaseline, State.withSession_some hx, if_pos h]

theorem reqMarkBaseline_marks (hx : s.session p = some x) (h0 : mask ≠ 0) (h : mask &&& 0xF0 = 0) :
    let baselines := x.baselines.mapWith fun a b => if mask.getLsbD a.number then (s.energy.acc.get a).value else b
    reqMarkBaseline p mask s = (s.setSession p (some { x with baselines := baselines }),
      Reply.ok (allAccumulators.flatMap fun a => be48 (baselines.get a))) := by
  intro baselines
  rw [reqMarkBaseline, State.withSession_some hx, if_neg (not_or.mpr ⟨h0, not_not.mpr h⟩), ← accBytes_eq]

theorem reqSnapshot_starts (h : s.energy.pendingSnapshot = none) : reqSnapshot p s =
    ({ s with energy := { s.energy with
        pendingSnapshot := some { id := s.energy.nextSnapshot, requesters := (PerPort.all false).set p true }
        nextSnapshot := idSucc s.energy.nextSnapshot } }, Reply.ok (be16 s.energy.nextSnapshot ++ [0])) := by
  simp only [reqSnapshot, h]
  rfl

theorem reqSnapshot_joins {n : PendingSnapshot} (h : s.energy.pendingSnapshot = some n) : reqSnapshot p s =
    ({ s with energy := { s.energy with pendingSnapshot := some { n with requesters := n.requesters.set p true } } },
      Reply.ok (be16 n.id ++ [1])) := by
  simp only [reqSnapshot, h]

end

/-- Settles O59: request by request, with the record that the idle deadline gave the session before. -/
theorem energyRequests : Obligations.EnergyRequests := by
  intro s p tag x ready hx y base en latched pendingId
  have hy : base.session p = some y := State.session_setSession ..
  refine ⟨fun mask h0 h => ?_, fun mask h => ?_, fun hn => ?_, fun n hn => ?_, ?_, ?_⟩
  · exact exec_moved (r := .markBaseline mask) ready hx rfl (reqMarkBaseline_marks hy h0 h)
  · exact exec_onlyReplied (r := .markBaseline mask) ready hx rfl (reqMarkBaseline_badMask hy h)
  · exact exec_replied (r := .snapshot) ready hx rfl (reqSnapshot_starts (s := base) hn)
  · exact exec_replied (r := .snapshot) ready hx rfl (reqSnapshot_joins (s := base) hn)
  · refine exec_replied (r := .readSnapshot) ready hx rfl ?_
    show (base.latch p Latches.clearSnapshotDone, _) = _
    rw [State.latch_setSession, accBytes_eq]
    rfl
  · refine exec_replied (r := .pulseStatus) ready hx rfl ?_
    show (base.latch p Latches.clearPulseLost, _) = _
    rw [State.latch_setSession]
    rfl

end Sys2Proof.Machine
end

section
/-! SUPPORT. Responses on the ports: a fetch shifts one out on port A or B (R165), port C sends one and holds what completes meanwhile
(R169), and the delivery of a RESTART's OK is the restart (R149). -/

namespace Sys2Proof.Machine

/-! ### A fetch (R149, R165) -/

section
variable {s : State} {p : SyncId} {r : Response} {b : Byte}

theorem State.fetchOne_idle (h : (s.links.get p).pending = none) :
    s.fetchOne p = s.onLink p fun k => { k with sdo := some 0xFF } := by
  simp only [State.fetchOne, h]

theorem State.fetchOne_more (h : (s.links.get p).pending = some r) (hb : r.bytes[(s.links.get p).fetchPos]? = some b)
    (hlt : (s.links.get p).fetchPos + 1 < r.bytes.length) :
    s.fetchOne p = s.onLink p fun k => { k with sdo := some b, fetchPos := k.fetchPos + 1 } := by
  simp only [State.fetchOne, h, List.getD_eq_getElem?_getD, hb, Option.getD_some, if_neg (Nat.not_le.mpr hlt)]

theorem State.fetchOne_last (h : (s.links.get p).pending = some r) (hb : r.bytes[(s.links.get p).fetchPos]? = some b)
    (hlast : (s.links.get p).fetchPos + 1 = r.bytes.length) (hr : r.restartOk = false) :
    s.fetchOne p = s.onLink p fun k => { k with sdo := some b, fetchPos := 0, pending := none } := by
  simp only [State.fetchOne, h, List.getD_eq_getElem?_getD, hb, Option.getD_some, if_pos hlast.ge, hr, Bool.false_eq_true, if_false]

theorem State.fetchOne_restarts (h : (s.links.get p).pending = some r)
    (hlast : (s.links.get p).fetchPos + 1 = r.bytes.length) (hr : r.restartOk = true) : s.fetchOne p = s.restartNow := by
  simp only [State.fetchOne, h, if_pos hlast.ge, hr, if_true]

theorem exec_fetchByte {t : State} (hrun : s.pins.resetLow = false) (hphase : (s.links.get p).phase = .fetch) (h : s.fetchOne p = t) :
    exec (.fetchByte p) s = .next t.drive := by
  show execFetchByte p s = _
  exact State.whenRunning_eq hrun ((if_pos hphase).trans h)

end

/-- Settles O48: each case is one of what a fetch can do. -/
theorem fetchByte : Obligations.FetchByte := by
  intro s p hrun hphase k withLink
  refine ⟨fun h => ?idle, fun r b h hb => ⟨fun hlt => ?more, fun hlast hr => ?last, fun hlast hr => ?restarts⟩⟩
  case idle => exact exec_fetchByte hrun hphase (State.fetchOne_idle h)
  case more => exact exec_fetchByte hrun hphase (State.fetchOne_more h hb hlt)
  case last => exact exec_fetchByte hrun hphase (State.fetchOne_last h hb hlast hr)
  case restarts => exact exec_fetchByte hrun hphase (State.fetchOne_restarts h hlast hr)

/-! ### An answer on its port (R161, R164) -/

theorem SyncLink.answer_eq (k : SyncLink) (r : Response) : k.answer r = { k with
    pending := some r, fetchPos := 0, unfetched := if k.pending = none then k.unfetched else min 255 (k.unfetched + 1) } := by
  cases h : k.pending <;> simp [SyncLink.answer, satInc, h]

theorem State.answer_syncPort (s : State) (p : SyncId) (r : Response) :
    s.answer (syncPort p) r = { s with links := s.links.set p ((s.links.get p).answer r) } := by
  cases p <;> rfl

/-! ### A frame that completes while port C sends (R169, R174) -/

/-- Every request command is the arrival of its good frame (log 18). -/
theorem exec_commandOf_eq_request (s : State) (p : Port) (tag : Byte) (q : Request) :
    exec (commandOf p tag q) s = s.whenRunning fun s => s.request p tag q := by
  cases q <;> rfl

section
variable {s : State} {r : Response}

theorem State.arriveOnC_held (hs : s.portC.sending = some r) (hh : s.portC.held = none) (deadline : Option W32) (f : RequestFrame) :
    s.arriveOnC deadline f = { s with portC := { s.portC with held := some { frame := f, deadline := deadline } } } := by
  simp only [State.arriveOnC, hs, hh]

theorem State.arriveOnC_overlap {g : HeldFrame} (hs : s.portC.sending = some r) (hh : s.portC.held = some g) (deadline : Option W32)
    (f : RequestFrame) : s.arriveOnC deadline f = { s with portC := { s.portC with overlap := min 255 (s.portC.overlap + 1) } } := by
  simp only [State.arriveOnC, hs, hh, satInc]

/-- A request command on port C is its frame's arrival there, once the idle deadline is set again (R169, R174). -/
theorem exec_commandOf_onC {t : State} {tag : Byte} {q : Request} (hrun : s.pins.resetLow = false)
    (h : (s.restartIdle .c).arriveOnC (s.deadlineFrom .c) (frameOf tag q) = t) : exec (commandOf .c tag q) s = .next t.drive := by
  rw [exec_commandOf_eq_request]
  exact State.whenRunning_eq hrun h

/-! ### A response sent on port C (R149, R169) -/

theorem State.responseDelivered_restarts (hr : r.restartOk = true) : s.responseDelivered r = s.restartNow :=
  if_pos hr

theorem State.responseDelivered_alone (hr : r.restartOk = false) (hh : s.portC.held = none) :
    s.responseDelivered r = { s with portC := { s.portC with sending := none } } := by
  simp only [State.responseDelivered, hr, hh, Bool.false_eq_true, if_false, State.onPortC]

theorem exec_responseSent {t : State} (hrun : s.pins.resetLow = false) (hs : s.portC.sending = some r)
    (h : s.responseDelivered r = t) : exec .responseSent s = .next t.drive := by
  show execResponseSent s = _
  refine State.whenRunning_eq hrun ?_
  simp only [hs, h]

end

/-- Settles O50: an answer by its port, then what the end of a response and a frame complete meanwhile find held. -/
theorem answersOnPorts : Obligations.AnswersOnPorts := by
  refine ⟨fun s p r => ?sync, fun s r => rfl, fun s r hrun hs =>
    ⟨fun hr hh => ?alone, fun hr => ?restarts, fun tag q hq =>
      ⟨fun deadline hr hh hd hx => ?heldTaken, fun hh => ?held, fun f hh => ?overlap⟩⟩⟩
  case sync => rw [State.answer_syncPort, SyncLink.answer_eq]
  case alone => exact exec_responseSent hrun hs (State.responseDelivered_alone hr hh)
  case restarts => exact exec_responseSent hrun hs (State.responseDelivered_restarts hr)
  case heldTaken =>
    intro idle out
    have taken : idle.takeRequestFrame .c deadline (frameOf tag q) = out.1.answer .c (responseOf tag out.2) :=
      State.takeRequestFrame_frameOf (s := idle) hq hd hx deadline
    exact (exec_responseSent_held hrun hs hr hh).trans (congrArg (fun t : State => Host.Outcome.next t.drive) taken)
  case held => exact exec_commandOf_onC hrun (State.arriveOnC_held (s := s.restartIdle .c) hs hh _ _)
  case overlap => exact exec_commandOf_onC hrun (State.arriveOnC_overlap (s := s.restartIdle .c) hs hh _ _)

end Sys2Proof.Machine
end

section
/-! SUPPORT. The setup lease (7.3): LEASE_TAKE by the lease and the queue as they stand (R133), and the end of a tenure by release or expiry
with the grant that may follow (R134, R135, R137, R138). -/

namespace Sys2Proof.Machine

/-! ### The remaining time of a fresh tenure (R132) -/

/-- A tick that lies ahead by less than half the counter's range is not reached (log 6). -/
theorem reached_afterMs (now : W32) {ms : Nat} (h0 : 0 < ms) (h : ms ≤ 0x80000000) : reached now (afterMs now ms) = false := by
  have hnow := now.isLt
  rw [reached, afterMs, BitVec.toNat_sub, BitVec.toNat_add, BitVec.toNat_ofNat]
  exact decide_eq_false (by omega)

theorem remainingMs_afterMs (now : W32) {ms : Nat} (h0 : 0 < ms) (h : ms ≤ 0x80000000) : remainingMs now (afterMs now ms) = ms := by
  have hsub : afterMs now ms - now = BitVec.ofNat 32 ms := by rw [afterMs, BitVec.add_comm, BitVec.add_sub_cancel]
  rw [remainingMs, reached_afterMs now h0 h, if_neg Bool.false_ne_true, hsub, BitVec.toNat_ofNat]
  exact Nat.mod_eq_of_lt (by omega)

/-- An OK to LEASE_TAKE reports the whole of the time asked for (R133). -/
theorem State.leaseOkPayload_fresh (s : State) {t : Tenure} {seconds : Nat} (h : 1 ≤ seconds ∧ seconds ≤ 60)
    (ht : t.expiry = afterMs s.nowTick (1000 * seconds)) :
    s.leaseOkPayload t = [portCode t.holder] ++ be16n (1000 * seconds) ++ be16 s.config.generation := by
  rw [State.leaseOkPayload, ht, remainingMs_afterMs _ (by omega) (by omega)]

/-! ### Places in the queue -/

theorem placeIn_append_cons {p : Port} {w : Waiter} (hw : w.host = p) (after : List Waiter) :
    ∀ {before : List Waiter}, (∀ v ∈ before, v.host ≠ p) → placeIn p (before ++ w :: after) = before.length + 1
  | [], _ => if_pos hw
  | v :: before, h => by
    have ih := placeIn_append_cons hw after fun u hu => h u (.tail _ hu)
    simp only [List.cons_append, placeIn, h v (.head _), if_false, ih, List.length_cons]

theorem placeIn_eq_zero {p : Port} {q : List Waiter} (h : ∀ w ∈ q, w.host ≠ p) : placeIn p q = 0 :=
  (placeIn_eq_zero_iff p q).mpr fun hm => by
    obtain ⟨w, hw, rfl⟩ := List.mem_map.mp hm
    exact h w hw rfl

theorem placeIn_ne_zero {p : Port} {q : List Waiter} (h : ∃ w ∈ q, w.host = p) : placeIn p q ≠ 0 := by
  obtain ⟨w, hw, rfl⟩ := h
  exact fun hz => (placeIn_eq_zero_iff _ q).mp hz (List.mem_map_of_mem hw)

/-! ### LEASE_TAKE by the lease as it stands (R133) -/

section
variable {s : State} {p : Port} {t : Tenure} {seconds : Nat}

theorem State.takeLease_free (hl : s.lease = none) (wait : Bool) : s.takeLease p seconds wait =
    ({ s with
        lease := some (s.newTenure p seconds)
        journal := { s.journal with waiting := s.journal.waiting ++
          ([⟨.leaseArbiter, s.front.tick, s.front.hc, .leaseEvent .granted p⟩] : List Append) } },
      Reply.ok (s.leaseOkPayload (s.newTenure p seconds))) := by
  simp only [State.takeLease, hl]
  rfl

theorem State.takeLease_renews (hl : s.lease = some t) (hp : t.holder = p) (wait : Bool) : s.takeLease p seconds wait =
    ({ s with lease := some { t with expiry := afterMs s.nowTick (1000 * seconds) } },
      Reply.ok (s.leaseOkPayload { t with expiry := afterMs s.nowTick (1000 * seconds) })) := by
  simp only [State.takeLease, hl, hp, if_true]

theorem State.takeLease_held (hl : s.lease = some t) (hp : t.holder ≠ p) :
    s.takeLease p seconds false = (s, Reply.carry .leaseHeld (s.leaseHeldPayload t)) := by
  simp only [State.takeLease, hl, hp, if_false, Bool.not_false, if_true]

theorem State.takeLease_joins (hl : s.lease = some t) (hp : t.holder ≠ p) (hq : ∀ w ∈ s.queue, w.host ≠ p) :
    s.takeLease p seconds true = ({ s with queue := s.queue ++ ([{ host := p, seconds := seconds }] : List Waiter) },
      Reply.carry .queued (s.leaseHeldPayload t ++ [byteOf (s.queue.length + 1)])) := by
  simp only [State.takeLease, hl, hp, if_false, Bool.not_true, Bool.false_eq_true, placeIn_eq_zero hq, if_true,
    placeIn_append_cons (w := { host := p, seconds := seconds }) rfl [] hq]

theorem State.takeLease_waits {w : Waiter} {before after : List Waiter} (hl : s.lease = some t) (hp : t.holder ≠ p)
    (hq : s.queue = before ++ w :: after) (hw : w.host = p) (hb : ∀ v ∈ before, v.host ≠ p) :
    s.takeLease p seconds true = (s, Reply.carry .queued (s.leaseHeldPayload t ++ [byteOf (before.length + 1)])) := by
  have hplace : placeIn p s.queue = before.length + 1 := hq ▸ placeIn_append_cons hw after hb
  simp only [State.takeLease, hl, hp, if_false, Bool.not_true, Bool.false_eq_true, hplace, Nat.succ_ne_zero]
  rw [← hl]

end

/-- The check of the arguments of LEASE_TAKE in the terms of R133. -/
theorem leaseArgsBad_iff (seconds wait : Byte) : seconds = 0 ∨ 60 < seconds.toNat ∨ isFlag wait = false ↔
    ¬ (1 ≤ seconds.toNat ∧ seconds.toNat ≤ 60 ∧ wait.toNat ≤ 1) := by
  rw [isFlag_eq_false_iff, ← BitVec.toNat_inj]
  change seconds.toNat = 0 ∨ _ ↔ _
  omega

section
variable {s : State} {p : Port} {seconds wait : Byte}

theorem reqLeaseTake_badValue (h : ¬ (1 ≤ seconds.toNat ∧ seconds.toNat ≤ 60 ∧ wait.toNat ≤ 1)) :
    reqLeaseTake p seconds wait s = (s.seenGrant p, Reply.refuse .badValue) :=
  if_pos ((leaseArgsBad_iff seconds wait).mpr h)

theorem reqLeaseTake_decided (h : 1 ≤ seconds.toNat ∧ seconds.toNat ≤ 60 ∧ wait.toNat ≤ 1) :
    reqLeaseTake p seconds wait s = (s.seenGrant p).takeLease p seconds.toNat (wait == 1) :=
  if_neg fun hbad => (leaseArgsBad_iff seconds wait).mp hbad h

end

/-- The session's record once a request of the lease has been taken: its idle deadline set, its LEASE_GRANTED cleared (R138, R174). -/
theorem State.seenGrant_setSession (s : State) (p : Port) (y : Session) : (s.setSession p (some y)).seenGrant p =
    s.setSession p (some { y with latches := { y.latches with leaseGranted := false } }) :=
  State.latch_setSession s p y Latches.clearLeaseGranted

/-- Settles O37: the arguments, then `takeLease` by the lease and the queue. -/
theorem leaseTaken : Obligations.LeaseTaken := by
  intro s p tag seconds wait x ready hx base expiry granted heldBy run argsOk
  have seen : (s.setSession p (some (s.touched p x))).seenGrant p = base := State.seenGrant_setSession ..
  have decided : ∀ {t : State} {reply : Reply}, argsOk → base.takeLease p seconds.toNat (wait == 1) = (t, reply) →
      run = .next (t.replied p tag reply) := fun ok h =>
    exec_replied (r := .leaseTake seconds wait) ready hx rfl ((reqLeaseTake_decided ok).trans (seen.symm ▸ h))
  have okPayload : ∀ t : Tenure, argsOk → t.holder = p → t.expiry = afterMs base.nowTick (1000 * seconds.toNat) →
      Reply.ok (base.leaseOkPayload t) = granted :=
    fun t ok hp he => congrArg Reply.ok (hp ▸ State.leaseOkPayload_fresh base ⟨ok.1, ok.2.1⟩ he)
  refine ⟨fun bad => ?badValue, fun ok hl => ?free, fun t ok hl hp => ?renews, fun t ok hl hp hw => ?held, fun t ok hl hp hw hq => ?joins,
    fun t w before after ok hl hp hw hq hwp hb => ?waits⟩
  case badValue =>
    exact exec_replied (r := .leaseTake seconds wait) ready hx rfl (seen ▸ reqLeaseTake_badValue bad)
  case free =>
    rw [decided ok (State.takeLease_free (s := base) hl _), okPayload _ ok rfl rfl]
    rfl
  case renews =>
    rw [decided ok (State.takeLease_renews (s := base) hl hp _),
      okPayload { t with expiry := afterMs base.nowTick (1000 * seconds.toNat) } ok hp rfl]
    rfl
  case held =>
    subst hw
    exact decided ok (State.takeLease_held (s := base) hl hp)
  case joins =>
    subst hw
    exact decided ok (State.takeLease_joins (s := base) hl hp hq)
  case waits =>
    subst hw
    exact decided ok (State.takeLease_waits (s := base) hl hp hq hwp hb)

/-! ### The end of a tenure (R134, R135, R137) -/

section
variable {s : State} {p : Port} {t : Tenure}

theorem State.passLease_free (hq : s.queue = []) : s.passLease = { s with lease := none } := by
  simp only [State.passLease, hq]

theorem State.passLease_grants {w : Waiter} {rest : List Waiter} (hq : s.queue = w :: rest) : s.passLease = State.latch { s with
      lease := some (s.newTenure w.host w.seconds)
      queue := rest
      journal := { s.journal with waiting := s.journal.waiting ++
        ([⟨.leaseArbiter, s.front.tick, s.front.hc, .leaseEvent .granted w.host⟩] : List Append) } }
      w.host fun l => { l with leaseGranted := true } := by
  simp only [State.passLease, hq]
  rfl

theorem State.endTenure_free (hq : s.queue = []) (event : LeaseEventKind) (holder : Port) : s.endTenure event holder =
    { s with lease := none, journal := { s.journal with waiting := s.journal.waiting ++
      ([⟨.leaseArbiter, s.front.tick, s.front.hc, .leaseEvent event holder⟩] : List Append) } } :=
  State.passLease_free (s := s.handNow .leaseArbiter (.leaseEvent event holder)) hq

theorem State.endTenure_passes {w : Waiter} {rest : List Waiter} (hq : s.queue = w :: rest) (event : LeaseEventKind) (holder : Port) :
    s.endTenure event holder = State.latch { s with
      lease := some (s.newTenure w.host w.seconds)
      queue := rest
      journal := { s.journal with waiting := s.journal.waiting ++
        ([⟨.leaseArbiter, s.front.tick, s.front.hc, .leaseEvent event holder⟩,
          ⟨.leaseArbiter, s.front.tick, s.front.hc, .leaseEvent .granted w.host⟩] : List Append) } }
      w.host fun l => { l with leaseGranted := true } := by
  rw [State.endTenure, State.passLease_grants (s := s.handNow .leaseArbiter (.leaseEvent event holder)) hq, State.handNow_journal,
    List.append_assoc]
  rfl

theorem State.holdsLease_of_holder (hl : s.lease = some t) (hp : t.holder = p) : s.holdsLease p = true := by
  simp only [State.holdsLease, hl, hp, beq_self_eq_true]

theorem reqLeaseRelease_ends (h : s.holdsLease p = true) :
    reqLeaseRelease p s = ((s.seenGrant p).endTenure .released p, Reply.ok []) := if_pos h

theorem reqLeaseRelease_leavesQueue (h : s.holdsLease p = false) (hw : ∃ w ∈ s.queue, w.host = p) :
    reqLeaseRelease p s = ({ s.seenGrant p with queue := s.queue.filter fun w => w.host != p }, Reply.ok []) := by
  have h' : (s.seenGrant p).holdsLease p = false := h
  have hplace : placeIn p (s.seenGrant p).queue ≠ 0 := placeIn_ne_zero hw
  simp only [reqLeaseRelease, h', Bool.false_eq_true, if_false, hplace]
  rfl

theorem reqLeaseRelease_refused (h : s.holdsLease p = false) (hw : ∀ w ∈ s.queue, w.host ≠ p) :
    reqLeaseRelease p s = (s.seenGrant p, Reply.refuse .notLeaseholder) := by
  have h' : (s.seenGrant p).holdsLease p = false := h
  have hplace : placeIn p (s.seenGrant p).queue = 0 := placeIn_eq_zero hw
  simp only [reqLeaseRelease, h', Bool.false_eq_true, if_false, hplace, if_true]

theorem exec_leaseExpiry {u : State} (hrun : s.pins.resetLow = false) (hl : s.lease = some t)
    (hr : reached s.front.tick t.expiry = true) (h : s.endTenure .expired t.holder = u) : exec .leaseExpiry s = .next u.drive := by
  show execLeaseExpiry s = _
  refine State.whenRunning_eq hrun ?_
  simp only [hl, State.nowTick, hr, if_true, h]

end

/-- LEASE_WARN_START drives the lines, under RESET too (R138, log 8). -/
theorem exec_leaseWarnStart (s : State) : exec .leaseWarnStart s = .next s.drive :=
  (s.whenRunning_cases fun s => s).elim And.right And.right

/-- Settles O38: the release by who asks, the expiry by who waits. -/
theorem leaseEnds : Obligations.LeaseEnds := by
  unfold Obligations.LeaseEnds
  intro ended passed
  refine ⟨fun s p tag x ready hx => ?release, fun s t hrun hl hr => ⟨fun hq => ?expiresFree, fun w rest hq => ?expiresPassing⟩,
    exec_leaseWarnStart⟩
  case release =>
    intro base
    let touched := s.setSession p (some (s.touched p x))
    have seen : touched.seenGrant p = base := State.seenGrant_setSession ..
    have answered : ∀ {t : State} {reply : Reply}, reqLeaseRelease p touched = (t, reply) →
        exec (.leaseRelease p tag) s = .next (t.replied p tag reply) := exec_replied (r := .leaseRelease) ready hx rfl
    have holds : ∀ t, s.lease = some t → t.holder = p → touched.holdsLease p = true := fun t =>
      State.holdsLease_of_holder (s := touched)
    have other : (∀ t, s.lease = some t → t.holder ≠ p) → touched.holdsLease p = false := State.holdsLease_eq_false (s := touched)
    refine ⟨fun t hl hp hq => ?_, fun t w rest hl hp hq => ?_, fun h hw => ?_, fun h hw => ?_⟩
    · rw [answered (reqLeaseRelease_ends (holds t hl hp)), seen, State.endTenure_free (s := base) hq]
    · rw [answered (reqLeaseRelease_ends (holds t hl hp)), seen, State.endTenure_passes (s := base) hq]
      rfl
    · rw [answered (reqLeaseRelease_leavesQueue (other h) hw), seen]
      rfl
    · rw [answered (reqLeaseRelease_refused (other h) hw), seen]
  case expiresFree => exact exec_leaseExpiry hrun hl hr (State.endTenure_free hq .expired t.holder)
  case expiresPassing => exact exec_leaseExpiry hrun hl hr (State.endTenure_passes hq .expired t.holder)

end Sys2Proof.Machine
end

section
/-! SUPPORT. The stage of the setup lease and the table's addresses: STAGE_WRITE, STAGE_READ, CONFIG_READ and DISCARD (R141 to R143, R176),
LEASE_STATUS (R139), and the items that an address names (R128, R129, R142). -/

namespace Sys2Proof.Machine

/-! ### The items that an address names (R128, R129, R142) -/

theorem Item.ofAddress_address (i : Item) : Item.ofAddress i.sectionNumber i.record i.field = some i := by
  cases i with
  | front f => cases f <;> rfl
  | det d f => cases d <;> cases f <;> rfl
  | cap f => cases f <;> rfl
  | acc a f => cases a <;> cases f <;> rfl
  | pulse e f => cases e <;> cases f <;> rfl
  | host p f => cases p <;> cases f <;> rfl
  | rateMode => rfl

/-- No item has the field number that stands for every field of a record. -/
theorem Item.field_ne_everyField (i : Item) : i.field ≠ everyField := by
  cases i with
  | front f => show f.number ≠ everyField; cases f <;> decide
  | det d f => show f.number ≠ everyField; cases f <;> decide
  | cap f => show f.number ≠ everyField; cases f <;> decide
  | acc a f => show f.number ≠ everyField; cases f <;> decide
  | pulse e f => show f.number ≠ everyField; cases f <;> decide
  | host p f => show f.number ≠ everyField; cases f <;> decide
  | rateMode => decide

theorem Item.ofAddress_eq_none {sec record field : Byte}
    (h : ∀ i : Item, ¬ (i.sectionNumber = sec ∧ i.record = record ∧ i.field = field)) : Item.ofAddress sec record field = none := by
  refine List.find?_eq_none.mpr fun i _ hi => ?_
  simp only [Bool.and_eq_true, beq_iff_eq] at hi
  obtain ⟨⟨hsec, hrecord⟩, hfield⟩ := hi
  exact h i ⟨hsec, hrecord, hfield⟩

theorem Item.named_address (i : Item) : Item.named i.sectionNumber i.record i.field = [i] := by
  rw [Item.named, if_neg i.field_ne_everyField, Item.ofAddress_address]
  rfl

theorem Item.named_everyField_eq_nil {sec record : Byte} (h : ∀ i : Item, ¬ (i.sectionNumber = sec ∧ i.record = record)) :
    Item.named sec record 0xFF = [] := by
  refine (if_pos rfl).trans (List.filter_eq_nil_iff.mpr fun i _ hi => ?_)
  simp only [Bool.and_eq_true, beq_iff_eq] at hi
  exact h i hi

theorem Item.named_eq_nil {sec record field : Byte} (hf : field ≠ everyField)
    (h : ∀ i : Item, ¬ (i.sectionNumber = sec ∧ i.record = record ∧ i.field = field)) : Item.named sec record field = [] := by
  rw [Item.named, if_neg hf, Item.ofAddress_eq_none h]
  rfl

theorem Item.named_det (d : DetId) : Item.named 1 d.record 0xFF = detFields.map (.det d) := by cases d <;> rfl

theorem Item.named_acc (a : AccId) : Item.named 3 a.record 0xFF = accFields.map (.acc a) := by cases a <;> rfl

theorem Item.named_pulse (e : PulseId) : Item.named 3 (pulseRecord e) 0xFF = pulseFields.map (.pulse e) := by cases e <;> rfl

/-- Port C's record has a field more, the rate mode (7.1). -/
theorem Item.named_host {p : Port} (hp : p ≠ .c) : Item.named 4 (portCode p) 0xFF = hostFields.map (.host p) := by
  cases p with
  | a => rfl
  | b => rfl
  | c => exact absurd rfl hp

/-! ### The requests on the stage (R141 to R143, R176) -/

section
variable {s : State} {t : Tenure} {sec record field : Byte}

theorem reqStageWrite_stores (hl : s.lease = some t) {i : Item} {v : W16} (hv : i.inRange v = true) :
    reqStageWrite t.holder i.sectionNumber i.record i.field v s = ({ s with lease := some { t with stage := t.stage.set i v } },
      Reply.ok ([i.sectionNumber, i.record, i.field] ++ be16 v)) := by
  simp only [reqStageWrite, State.withLease_holder hl, i.ofAddress_address, hv, if_true]
  rfl

theorem reqStageWrite_noItem (hl : s.lease = some t) (value : W16)
    (h : ∀ i : Item, ¬ (i.sectionNumber = sec ∧ i.record = record ∧ i.field = field)) :
    reqStageWrite t.holder sec record field value s = (s, Reply.refuse .badValue) := by
  simp only [reqStageWrite, State.withLease_holder hl, Item.ofAddress_eq_none h]

theorem reqStageWrite_outOfRange (hl : s.lease = some t) {i : Item} {v : W16} (hv : i.inRange v = false) :
    reqStageWrite t.holder i.sectionNumber i.record i.field v s = (s, Reply.refuse .badValue) := by
  simp only [reqStageWrite, State.withLease_holder hl, i.ofAddress_address, hv, Bool.false_eq_true, if_false]

theorem reqStageRead_reads (hl : s.lease = some t) (h : Item.named sec record field ≠ []) :
    reqStageRead t.holder sec record field s =
      (s, Reply.ok ([sec, record, field] ++ itemBytes t.stage (Item.named sec record field))) := by
  cases hn : Item.named sec record field with
  | nil => exact absurd hn h
  | cons i rest => simp only [reqStageRead, State.withLease_holder hl, hn]

theorem reqStageRead_noItem (hl : s.lease = some t) (h : Item.named sec record field = []) :
    reqStageRead t.holder sec record field s = (s, Reply.refuse .badValue) := by
  simp only [reqStageRead, State.withLease_holder hl, h]

theorem reqConfigRead_reads (h : Item.named sec record field ≠ []) : reqConfigRead sec record field s =
    (s, Reply.ok (be16 s.config.generation ++ [sec, record, field]
      ++ itemBytes s.config.committed (Item.named sec record field))) := by
  cases hn : Item.named sec record field with
  | nil => exact absurd hn h
  | cons i rest => simp only [reqConfigRead, hn]

theorem reqConfigRead_noItem (h : Item.named sec record field = []) :
    reqConfigRead sec record field s = (s, Reply.refuse .badValue) := by
  simp only [reqConfigRead, h]

theorem reqDiscard_restores (hl : s.lease = some t) :
    reqDiscard t.holder s = ({ s with lease := some { t with stage := s.config.committed } }, Reply.ok []) := by
  rw [reqDiscard, State.withLease_holder hl]
  rfl

theorem State.stageDiffers_eq (s : State) (p : Port) :
    s.stageDiffers p = (s.holdsLease p && s.lease.any fun t => t.stage != s.config.committed) := by
  cases hl : s.lease <;> simp only [State.stageDiffers, State.holdsLease, hl, Option.any_none, Option.any_some, Bool.and_false]

end

/-- Settles O39: the requests of the holder, of anyone else and of any session, then the table and its addresses. -/
theorem stageRequests : Obligations.StageRequests := by
  refine ⟨fun s p tag x ready hx => ?requests, fun t i v => ⟨Table.get_set_self t i v, fun j hj => Table.get_set_ne t v hj⟩,
    Item.named_address, Item.named_det, rfl, rfl, rfl, Item.named_acc, Item.named_pulse, fun p hp => Item.named_host hp,
    fun sec record h => Item.named_everyField_eq_nil h, fun sec record field hf h => Item.named_eq_nil hf h⟩
  case requests =>
    intro base
    have held : ∀ {t : Tenure}, s.lease = some t → base.lease = some t := id
    refine ⟨fun t i v hl hp hv => ?write, fun t sec record field hl hp hn => ?read, fun sec record field hn => ?config,
      fun t hl hp => ?discard, ⟨fun h => ?others, fun t hl hp => ?holder, fun sec record field hn => ?noConfig⟩, ?status⟩
    case write =>
      subst hp
      exact exec_replied (r := .stageWrite ..) ready hx rfl (reqStageWrite_stores (held hl) hv)
    case read =>
      subst hp
      exact exec_onlyReplied (r := .stageRead ..) ready hx rfl (reqStageRead_reads (held hl) hn)
    case config => exact exec_onlyReplied (r := .configRead ..) ready hx rfl (reqConfigRead_reads (s := base) hn)
    case discard =>
      subst hp
      exact exec_replied (r := .discard) ready hx rfl (reqDiscard_restores (held hl))
    case others =>
      have other : base.holdsLease p = false := State.holdsLease_eq_false (s := base) h
      refine ⟨fun sec record field value => ?_, fun sec record field => ?_, ?_⟩
      · exact exec_onlyReplied (r := .stageWrite ..) ready hx rfl (State.withLease_other other _)
      · exact exec_onlyReplied (r := .stageRead ..) ready hx rfl (State.withLease_other other _)
      · exact exec_onlyReplied (r := .discard) ready hx rfl (State.withLease_other other _)
    case holder =>
      subst hp
      refine ⟨fun sec record field value h => ?_, fun i value hv => ?_, fun sec record field hn => ?_⟩
      · exact exec_onlyReplied (r := .stageWrite ..) ready hx rfl (reqStageWrite_noItem (held hl) value h)
      · exact exec_onlyReplied (r := .stageWrite ..) ready hx rfl (reqStageWrite_outOfRange (held hl) hv)
      · exact exec_onlyReplied (r := .stageRead ..) ready hx rfl (reqStageRead_noItem (held hl) hn)
    case noConfig => exact exec_onlyReplied (r := .configRead ..) ready hx rfl (reqConfigRead_noItem (s := base) hn)
    case status =>
      refine exec_replied (r := .leaseStatus) ready hx rfl ?_
      show reqLeaseStatus p base = _
      rw [reqLeaseStatus, State.seenGrant_setSession, State.stageDiffers_eq]
      cases hl : s.lease <;> simp only [State.setSession_lease, hl] <;> rfl

end Sys2Proof.Machine
end

section
/-! SUPPORT. The cause set bit by bit and the level of a line (8.1, R158): every command ends with the lines driven; and the two attention
requests (R155, R156). -/

namespace Sys2Proof.Machine

/-! ### The bits of the cause set (R151 to R153) -/

theorem getLsbD_bitAt {n : Nat} (hn : n < 8) (b : Bool) (i : Nat) : (bitAt n b).getLsbD i = (decide (i = n) && b) := by
  cases b with
  | false => simp [bitAt]
  | true =>
    simp only [bitAt, if_true, BitVec.getLsbD_ofNat, Nat.testBit_two_pow, Bool.and_true]
    by_cases h : n = i
    · subst h; simp [hn]
    · simp [h, Ne.symm h]

/-- Bit n of the cause set is cause n (8.1). -/
theorem State.causeSet_getLsbD (s : State) (p : Port) (x : Session) (i : Nat) : (s.causeSet p x).getLsbD i =
    (decide (i = 0) && s.unread x || decide (i = 1) && x.latches.overrun || decide (i = 2) && x.latches.leaseGranted
      || decide (i = 3) && s.leaseWarn p || decide (i = 4) && x.latches.captureReclaimed || decide (i = 5) && x.latches.pulseLost
      || decide (i = 6) && x.latches.snapshotDone || decide (i = 7) && s.config.fault) := by
  simp [State.causeSet, BitVec.getLsbD_or, getLsbD_bitAt]

theorem State.unread_iff (s : State) (x : Session) : s.unread x = true ↔ x.watermark ≤ x.deliverableCount s.journal :=
  decide_eq_true_iff

theorem State.leaseWarn_iff (s : State) (p : Port) : s.leaseWarn p = true ↔
    ∃ t, s.lease = some t ∧ t.holder = p ∧ remainingMs s.front.tick t.expiry ≤ 2000 := by
  cases h : s.lease with
  | none => simp [State.leaseWarn, h]
  | some t => simp only [State.leaseWarn, h, Bool.and_eq_true, beq_iff_eq, decide_eq_true_iff, Option.some.injEq, exists_eq_left']; rfl

/-- Settles O4: the bits of `causeSet_getLsbD` one by one, and what the two computed causes say. -/
theorem causeSetBits : Obligations.CauseSetBits := by
  intro s p x
  rw [← State.unread_iff, ← State.leaseWarn_iff]
  simp only [State.causeSet_getLsbD]
  simp

/-! ### The level of a line (R158, R159) -/

/-- Two bytes meet in some bit. -/
theorem and_ne_zero_iff (x y : Byte) : x &&& y ≠ 0 ↔ ∃ n < 8, x.getLsbD n = true ∧ y.getLsbD n = true := by
  refine ⟨fun h => ?_, fun ⟨n, _, hx, hy⟩ h => ?_⟩
  · by_contra none
    refine h (BitVec.eq_of_getLsbD_eq fun n hn => ?_)
    have : ¬ (x.getLsbD n = true ∧ y.getLsbD n = true) := fun both => none ⟨n, hn, both⟩
    simpa using this
  · have bit : (x &&& y).getLsbD n = true := by rw [BitVec.getLsbD_and, hx, hy, Bool.and_self]
    rw [h] at bit
    simp at bit

/-- A running part's line, by the session that its port has. -/
theorem State.lineLow_of_session {s : State} {p : Port} {x : Session} (hrun : s.pins.resetLow = false) (hx : s.session p = some x) :
    s.lineLow p = (s.causeSet p x &&& x.attnMask != 0) := by
  simp only [State.lineLow, hx, hrun, Bool.not_false, Bool.true_and]

theorem State.lineLow_iff (s : State) (p : Port) : s.lineLow p = true ↔ s.pins.resetLow = false ∧ ∃ x, s.session p = some x
    ∧ ∃ n < 8, (s.causeSet p x).getLsbD n = true ∧ x.attnMask.getLsbD n = true := by
  cases hx : s.session p with
  | none => simp [State.lineLow, hx]
  | some x =>
    cases hrun : s.pins.resetLow with
    | true => simp [State.lineLow, hx, hrun]
    | false => rw [State.lineLow_of_session hrun hx, bne_iff_ne, and_ne_zero_iff]; simp

/-! ### Every command drives the lines -/

/-- An outcome whose lines stand as their causes say. -/
def DrivesLines (o : Host.Outcome State Fault Refusal) : Prop := ∃ u : State, o = .next u.drive

theorem State.whenRunning_drivesLines (s : State) (f : State → State) : DrivesLines (s.whenRunning f) := by
  rcases s.whenRunning_cases f with ⟨-, h⟩ | ⟨-, h⟩
  · exact ⟨_, h⟩
  · exact ⟨_, h⟩

theorem State.ite_done_drivesLines (b : Bool) (s u : State) : DrivesLines (if b then s.done else u.done) := by
  cases b
  · exact ⟨u, rfl⟩
  · exact ⟨s, rfl⟩

/-- All commands but two of the resets and RESET_RELEASE end as `State.whenRunning` has it, those of the pins after the pin's new level. -/
theorem exec_drivesLines (c : Instr) (s : State) : DrivesLines (exec c s) := by
  cases c with
  | powerOnReset => exact ⟨_, rfl⟩
  | pinReset => exact State.ite_done_drivesLines _ _ _
  | resetRelease => exact State.ite_done_drivesLines _ _ _
  | xtrigInEdge high => exact (State.whenRunning_drivesLines _ _ : DrivesLines (execXtrigInEdge high s))
  | selectFall q => exact (State.whenRunning_drivesLines _ _ : DrivesLines (execSelectFall q s))
  | selectRise q => exact (State.whenRunning_drivesLines _ _ : DrivesLines (execSelectRise q s))
  | _ => apply State.whenRunning_drivesLines

/-- Settles O3: the line as it was driven is the line as `lineLow_iff` reads it off the next state. -/
theorem linesFollowCauses : Obligations.LinesFollowCauses := by
  intro c s t p h
  obtain ⟨u, hu⟩ := exec_drivesLines c s
  obtain rfl : u.drive = t := Host.Outcome.next.inj (hu.symm.trans h)
  rw [State.drive_attnLow_get]
  exact State.lineLow_iff u.drive p

/-! ### The attention requests (R155, R156) -/

section
variable {s : State} {p : Port} {x : Session}

/-- The level that SET_ATTENTION answers with: 1 for a high line. -/
theorem State.levelByte_setSession (hrun : s.pins.resetLow = false) : flagByte (!(s.setSession p (some x)).lineLow p) =
    if (s.setSession p (some x)).causeSet p x &&& x.attnMask = 0 then 1 else 0 := by
  rw [State.lineLow_of_session (s := s.setSession p (some x)) hrun (State.session_setSession ..)]
  by_cases h : (s.setSession p (some x)).causeSet p x &&& x.attnMask = 0 <;> simp [h, flagByte]

theorem reqSetAttention_zero (hx : s.session p = some x) (mask : Byte) :
    reqSetAttention p mask 0 s = (s, Reply.refuse .badValue) := by
  rw [reqSetAttention, State.withSession_some hx]
  exact if_pos rfl

theorem reqSetAttention_installs (hrun : s.pins.resetLow = false) (hx : s.session p = some x) {mask watermark : Byte}
    (h : watermark ≠ 0) :
    let y := { x with attnMask := mask, watermark := watermark.toNat }
    let t := s.setSession p (some y)
    reqSetAttention p mask watermark s =
      (t, Reply.ok [mask, watermark, if t.causeSet p y &&& mask = 0 then 1 else 0]) := by
  intro y t
  rw [reqSetAttention, State.withSession_some hx, if_neg h]
  exact congrArg (fun b => (t, Reply.ok [mask, watermark, b])) (State.levelByte_setSession (x := y) hrun)

end

/-- Settles O57: SET_ATTENTION by its watermark, and ATTENTION_STATUS. -/
theorem attentionRequests : Obligations.AttentionRequests := by
  intro s p tag x ready hx
  have hy : (s.setSession p (some (s.touched p x))).session p = some (s.touched p x) := State.session_setSession ..
  refine ⟨fun mask watermark h => ?_, fun mask => ?_, ?_⟩
  · have installs := reqSetAttention_installs (s := s.setSession p (some (s.touched p x))) ready.1 hy (mask := mask) h
    simp only [State.setSession_setSession] at installs
    exact exec_replied (r := .setAttention mask watermark) ready hx rfl installs
  · exact exec_onlyReplied (r := .setAttention mask 0) ready hx rfl (reqSetAttention_zero hy mask)
  · exact exec_moved (r := .attentionStatus) ready hx rfl (State.withSession_some hy _)

end Sys2Proof.Machine
end

section
/-! SUPPORT. Refused requests (R154, R176, R177): a request is answered OK or leaves the state as it found it, but for those of the lease, a
note and QUEUED. -/

namespace Sys2Proof.Machine

/-- A request of a state that is answered OK, or that changes nothing. -/
def State.OkOrSame (s : State) (out : State × Reply) : Prop := out.2.status = .ok ∨ out.1 = s

section
variable {s : State} {p : Port}

theorem State.OkOrSame.ok (t : State) (payload : List Byte) : s.OkOrSame (t, Reply.ok payload) := .inl rfl

theorem State.OkOrSame.same (r : Reply) : s.OkOrSame (s, r) := .inr rfl

theorem State.OkOrSame.ite {c : Prop} [Decidable c] {a b : State × Reply} (ha : c → s.OkOrSame a) (hb : ¬ c → s.OkOrSame b) :
    s.OkOrSame (if c then a else b) := by
  split
  · exact ha ‹_›
  · exact hb ‹_›

/-- A request refused by one check goes on to the rest of it. -/
theorem State.OkOrSame.checked {c : Prop} [Decidable c] {r : Reply} {out : State × Reply} (h : s.OkOrSame out) :
    s.OkOrSame (if c then (s, r) else out) := .ite (fun _ => .same r) fun _ => h

theorem State.withSession_okOrSame {f : Session → State × Reply} (h : ∀ x, s.OkOrSame (f x)) : s.OkOrSame (s.withSession p f) := by
  unfold State.withSession
  split
  · exact .same _
  · exact h _

theorem State.withLease_okOrSame {f : Tenure → State × Reply} (h : ∀ t, s.OkOrSame (f t)) : s.OkOrSame (s.withLease p f) := by
  unfold State.withLease
  split
  · exact .same _
  · exact .ite (fun _ => h _) fun _ => .same _

/-! ### Requests on sessions and readers -/

theorem reqOpenSession_okOrSame (deadline : Option W32) (start retention : Byte) :
    s.OkOrSame (reqOpenSession p deadline start retention s) := by
  refine .checked (.checked ?_)
  split
  · exact .same _
  · exact .ok _ _

theorem reqSetRetention_okOrSame (retention : Byte) : s.OkOrSame (reqSetRetention p retention s) :=
  State.withSession_okOrSame fun _ => .checked <| .ite
    (fun _ => by
      split
      · exact .same _
      · exact .ok _ _)
    fun _ => .ite (fun _ => .ok _ _) fun _ => .same _

theorem reqAckEntries_okOrSame (seq : W32) : s.OkOrSame (reqAckEntries p seq s) :=
  State.withSession_okOrSame fun _ => .checked (.checked (.checked (.ok _ _)))

/-! ### Requests on captures -/

theorem reqReleaseCapture_okOrSame (id : W16) : s.OkOrSame (reqReleaseCapture p id s) := by
  refine .checked ?_
  split
  · exact .same _
  · exact .checked (.ok _ _)

/-! ### Requests on the Energy Block and read sets -/

theorem reqSnapshot_ok : (reqSnapshot p s).2.status = .ok := by
  unfold reqSnapshot
  split <;> rfl

theorem reqDefineReadSet_okOrSame (codes : List Byte) : s.OkOrSame (reqDefineReadSet p codes s) :=
  State.withSession_okOrSame fun _ => by
    split
    · exact .same _
    · exact .checked (.ok _ _)

/-! ### Requests of the lease holder -/

theorem reqStageWrite_okOrSame (sec record field : Byte) (value : W16) : s.OkOrSame (reqStageWrite p sec record field value s) :=
  State.withLease_okOrSame fun _ => by
    split
    · exact .same _
    · exact .ite (fun _ => .ok _ _) fun _ => .same _

theorem reqCommit_okOrSame : s.OkOrSame (reqCommit p s) :=
  State.withLease_okOrSame fun _ => by
    split
    · exact .same _
    · exact .ok _ _

/-! ### Requests of the lease (R133, R134) -/

theorem State.takeLease_refused {seconds : Nat} {wait : Bool} (hok : (s.takeLease p seconds wait).2.status ≠ .ok)
    (hq : (s.takeLease p seconds wait).2.status ≠ .queued) : (s.takeLease p seconds wait).1 = s := by
  cases hl : s.lease with
  | none => rw [State.takeLease_free hl] at hok; exact absurd rfl hok
  | some t =>
    by_cases hp : t.holder = p
    · rw [State.takeLease_renews hl hp] at hok; exact absurd rfl hok
    · cases wait with
      | false => rw [State.takeLease_held hl hp]
      | true => simp [State.takeLease, hl, hp, Reply.carry] at hq

theorem reqLeaseTake_refused {seconds wait : Byte} (hok : (reqLeaseTake p seconds wait s).2.status ≠ .ok)
    (hq : (reqLeaseTake p seconds wait s).2.status ≠ .queued) : (reqLeaseTake p seconds wait s).1 = s.seenGrant p := by
  by_cases h : 1 ≤ seconds.toNat ∧ seconds.toNat ≤ 60 ∧ wait.toNat ≤ 1
  · rw [reqLeaseTake_decided h] at hok hq ⊢
    exact State.takeLease_refused hok hq
  · rw [reqLeaseTake_badValue h]

theorem reqLeaseRelease_okOrSeen : (s.seenGrant p).OkOrSame (reqLeaseRelease p s) :=
  .ite (fun _ => .ok _ _) fun _ => .checked (.ok _ _)

end

/-! ### Every request -/

/-- The requests whose taking clears LEASE_GRANTED also where they are refused (R138, R154). -/
def OnLease (r : Request) : Prop := (∃ seconds wait, r = .leaseTake seconds wait) ∨ r = .leaseRelease

/-- Every request but a note and those of the lease is answered OK or changes nothing (R176). -/
theorem State.perform_okOrSame (s : State) (p : Port) (deadline : Option W32) {r : Request} (hnote : ∀ data, r ≠ .appendNote data)
    (hlease : ¬ OnLease r) : s.OkOrSame (s.perform p deadline r) := by
  cases r with
  | openSession start retention => exact reqOpenSession_okOrSame deadline start retention
  | closeSession => exact State.withSession_okOrSame fun _ => .ok _ _
  | portStatus clear => exact .checked (.ok _ _)
  | setAttention mask watermark => exact State.withSession_okOrSame fun _ => .checked (.ok _ _)
  | attentionStatus => exact State.withSession_okOrSame fun _ => .ok _ _
  | setSubscription mask => exact State.withSession_okOrSame fun _ => .ok _ _
  | setRetention retention => exact reqSetRetention_okOrSame retention
  | readEntries countAndAck => exact State.withSession_okOrSame fun _ => .checked (.ok _ _)
  | ackEntries seq => exact reqAckEntries_okOrSame seq
  | rewind => exact State.withSession_okOrSame fun _ => .ok _ _
  | journalStatus => exact State.withSession_okOrSame fun _ => .same _
  | appendNote data => exact absurd rfl (hnote data)
  | captureNow => exact .ok _ _
  | captureList => exact .same _
  | readFrames id part offset count => exact .inr (reqReadFrames_state id part offset count s)
  | releaseCapture id => exact reqReleaseCapture_okOrSame id
  | storeStatus id => exact .inr (reqStoreStatus_state id s)
  | readEnergy => exact State.withSession_okOrSame fun _ => .same _
  | markBaseline mask => exact State.withSession_okOrSame fun _ => .checked (.ok _ _)
  | snapshot => exact .inl reqSnapshot_ok
  | readSnapshot => exact .ok _ _
  | pulseStatus => exact .ok _ _
  | leaseTake seconds wait => exact absurd (.inl ⟨seconds, wait, rfl⟩) hlease
  | leaseRelease => exact absurd (.inr rfl) hlease
  | leaseStatus => exact .ok _ _
  | stageWrite sec record field value => exact reqStageWrite_okOrSame sec record field value
  | stageRead sec record field => exact State.withLease_okOrSame fun t => by split <;> exact .same _
  | configRead sec record field => exact .inr (reqConfigRead_state sec record field s)
  | commit => exact reqCommit_okOrSame
  | discard => exact State.withLease_okOrSame fun _ => .ok _ _
  | clearTally mask => exact State.withLease_okOrSame fun _ => .checked (.ok _ _)
  | restart generation => exact State.withLease_okOrSame fun _ => .checked (.inl rfl)
  | defineReadSet codes => exact reqDefineReadSet_okOrSame codes
  | readSet => exact State.withSession_okOrSame fun _ => .same _
  | detectorStatus => exact .same _

/-- A refused request of the lease does nothing but clear the requester's LEASE_GRANTED. -/
theorem State.perform_onLease_refused {s : State} {p : Port} {deadline : Option W32} {r : Request} (hlease : OnLease r)
    (hok : (s.perform p deadline r).2.status ≠ .ok) (hq : (s.perform p deadline r).2.status ≠ .queued) :
    (s.perform p deadline r).1 = s.seenGrant p := by
  obtain ⟨seconds, wait, rfl⟩ | rfl := hlease
  · exact reqLeaseTake_refused hok hq
  · exact reqLeaseRelease_okOrSeen.resolve_left hok

/-- Settles O53: what `perform` leaves of a refused request is answered. -/
theorem refusalsChangeNothing : Obligations.RefusalsChangeNothing := by
  intro s p tag r ready hr hs base reply hok hq hnote
  have taken : exec (commandOf p tag r) s = .next ((base.perform p (s.deadlineFrom p) r).1.replied p tag reply) :=
    exec_commandOf s p tag hr ready hs
  by_cases hlease : OnLease r
  · have seen := State.perform_onLease_refused hlease hok hq
    exact .inr ⟨hlease, by rw [taken, seen]; rfl⟩
  · have same := (base.perform_okOrSame p (s.deadlineFrom p) hnote hlease).resolve_left hok
    exact .inl (by rw [taken, same])

end Sys2Proof.Machine
end

section
/-! SUPPORT. Request frames byte by byte: a frame in receipt at each of its bytes (R163, R168), the frame as the only one that reads as its
request (10.5), and the round trip of requests and responses. -/

namespace Sys2Proof.Machine

/-! ### A frame in receipt -/

theorem readReceipt_of_short {l : List Byte} (h : l.length < 4) : readReceipt l = .more := by
  match l, h with
  | [], _ => rfl
  | [_], _ => rfl
  | [_, _], _ => rfl
  | [_, _, _], _ => rfl

theorem readReceipt_header (lead tag code len : Byte) :
    readReceipt [lead, tag, code, len] = if 60 < len.toNat then .tooLong else .more := rfl

theorem readReceipt_body (lead tag code len : Byte) {rest : List Byte} (h : rest ≠ []) :
    readReceipt (lead :: tag :: code :: len :: rest) =
      if rest.length = len.toNat + 1 then
        .complete { tag := tag, code := code, payload := rest.take len.toNat, check := rest.getD len.toNat 0 }
      else .more := by
  cases rest with
  | nil => exact absurd rfl h
  | cons b bs => rfl

/-- The fourth byte of a frame is its length byte. -/
theorem readReceipt_tooLong {l : List Byte} {b : Byte} (hl : l.length = 3) (hb : 60 < b.toNat) : readReceipt (l ++ [b]) = .tooLong := by
  match l, hl with
  | [lead, tag, code], _ => exact (readReceipt_header lead tag code b).trans (if_pos hb)

section
variable {f : RequestFrame}

theorem RequestFrame.length_toNat (h : f.payload.length ≤ 60) : f.length.toNat = f.payload.length := by
  rw [RequestFrame.length, byteOf, BitVec.toNat_ofNat]
  exact Nat.mod_eq_of_lt (by omega)

theorem readReceipt_frame (lead : Byte) (h : f.payload.length ≤ 60) :
    readReceipt ([lead, f.tag, f.code, f.length] ++ f.payload ++ [f.check]) = .complete f := by
  refine (readReceipt_body lead f.tag f.code f.length (rest := f.payload ++ [f.check]) (by simp)).trans ?_
  rw [RequestFrame.length_toNat h, if_pos (by simp)]
  simp

theorem readReceipt_frame_take (lead : Byte) (h : f.payload.length ≤ 60) {n : Nat}
    (hn : n < ([lead, f.tag, f.code, f.length] ++ f.payload ++ [f.check]).length) :
    readReceipt (([lead, f.tag, f.code, f.length] ++ f.payload ++ [f.check]).take n) = .more := by
  have hlen := RequestFrame.length_toNat h
  rcases Nat.lt_trichotomy n 4 with hlt | rfl | hgt
  · exact readReceipt_of_short (by rw [List.length_take]; omega)
  · exact (readReceipt_header lead f.tag f.code f.length).trans (if_neg (by omega))
  · obtain ⟨m, rfl⟩ : ∃ m, n = m + 1 + 4 := ⟨n - 5, by omega⟩
    have part : ((f.payload ++ [f.check]).take (m + 1)).length = m + 1 := by
      simp only [List.length_append, List.length_cons, List.length_nil] at hn
      simp only [List.length_take, List.length_append, List.length_cons, List.length_nil]
      omega
    refine (readReceipt_body lead f.tag f.code f.length (rest := (f.payload ++ [f.check]).take (m + 1)) ?_).trans (if_neg ?_)
    · exact List.ne_nil_of_length_pos (by omega)
    · simp only [List.length_append, List.length_cons, List.length_nil] at hn
      omega

end

/-! ### The frame of a request -/

theorem reqPayload_length_le {r : Request} (h : r.wellFormed = true) : (reqPayload r).length ≤ 60 := by
  cases r with
  | appendNote data => exact (of_decide_eq_true h : data.length = 16).trans_le (by decide)
  | defineReadSet codes => exact (of_decide_eq_true h : codes.length ≤ 12).trans (by decide)
  | _ => exact of_decide_eq_true rfl

/-- The bytes that a request's frame shows before its check byte, and the check byte, are its frame. -/
theorem readReceipt_frameOf {tag : Byte} {r : Request} (hr : r.wellFormed = true) {receipt : List Byte} {b : Byte}
    (hreceipt : receipt = [0x55, tag, (frameOf tag r).code, (frameOf tag r).length] ++ (frameOf tag r).payload)
    (hb : b = (frameOf tag r).check) : readReceipt (receipt ++ [b]) = .complete (frameOf tag r) := by
  subst hreceipt hb
  exact readReceipt_frame (f := frameOf tag r) 0x55 (reqPayload_length_le hr)

theorem be16_word16 (hi lo : Byte) : be16 (word16 hi lo) = [hi, lo] := by
  rw [be16, word16, BitVec.extractLsb'_append_eq_left, BitVec.extractLsb'_append_eq_right]

theorem be32_word32 (b3 b2 b1 b0 : Byte) : be32 (word32 b3 b2 b1 b0) = [b3, b2, b1, b0] := by
  have h3 : (b3 ++ b2 ++ b1 ++ b0).extractLsb' 24 8 = b3 :=
    (BitVec.extractLsb'_append_eq_of_le (by decide)).trans
      ((BitVec.extractLsb'_append_eq_of_le (by decide)).trans BitVec.extractLsb'_append_eq_left)
  have h2 : (b3 ++ b2 ++ b1 ++ b0).extractLsb' 16 8 = b2 :=
    (BitVec.extractLsb'_append_eq_of_le (by decide)).trans
      ((BitVec.extractLsb'_append_eq_of_le (by decide)).trans BitVec.extractLsb'_append_eq_right)
  have h1 : (b3 ++ b2 ++ b1 ++ b0).extractLsb' 8 8 = b1 :=
    (BitVec.extractLsb'_append_eq_of_le (by decide)).trans BitVec.extractLsb'_append_eq_right
  rw [be32, word32, h3, h2, h1, BitVec.extractLsb'_append_eq_right]

/-- The requests of a code whose payload is a given one. -/
def ReqCode.Spells (c : ReqCode) (payload : List Byte) (r : Request) : Prop :=
  reqCodeOf r = c ∧ reqPayload r = payload ∧ r.wellFormed = true

section
variable {payload : List Byte} {code : ReqCode}

theorem exists_spells_nil {r : Request} (hr : code.Spells [] r) (h : (payload.length == 0) = true) : ∃ r, code.Spells payload r := by
  obtain rfl := List.eq_nil_of_length_eq_zero (eq_of_beq h)
  exact ⟨r, hr⟩

theorem exists_spells_byte {r : Byte → Request} (hr : ∀ a, code.Spells [a] (r a)) (h : (payload.length == 1) = true) :
    ∃ r, code.Spells payload r := by
  obtain ⟨a, rfl⟩ := List.length_eq_one_iff.mp (eq_of_beq h)
  exact ⟨r a, hr a⟩

theorem exists_spells_two {r : Byte → Byte → Request} (hr : ∀ a b, code.Spells [a, b] (r a b)) (h : (payload.length == 2) = true) :
    ∃ r, code.Spells payload r := by
  obtain ⟨a, b, rfl⟩ := List.length_eq_two.mp (eq_of_beq h)
  exact ⟨r a b, hr a b⟩

theorem exists_spells_three {r : Byte → Byte → Byte → Request} (hr : ∀ a b c, code.Spells [a, b, c] (r a b c))
    (h : (payload.length == 3) = true) : ∃ r, code.Spells payload r := by
  obtain ⟨a, b, c, rfl⟩ := List.length_eq_three.mp (eq_of_beq h)
  exact ⟨r a b c, hr a b c⟩

end

/-- Every payload of the length that a code takes is the payload of a request of that code (check 4 admits nothing else). -/
theorem ReqCode.exists_spells {c : ReqCode} {payload : List Byte} (h : c.lengthOk payload.length = true) :
    ∃ r, c.Spells payload r := by
  cases c with
  | closeSession => exact exists_spells_nil (r := .closeSession) ⟨rfl, rfl, rfl⟩ h
  | attentionStatus => exact exists_spells_nil (r := .attentionStatus) ⟨rfl, rfl, rfl⟩ h
  | rewind => exact exists_spells_nil (r := .rewind) ⟨rfl, rfl, rfl⟩ h
  | journalStatus => exact exists_spells_nil (r := .journalStatus) ⟨rfl, rfl, rfl⟩ h
  | captureNow => exact exists_spells_nil (r := .captureNow) ⟨rfl, rfl, rfl⟩ h
  | captureList => exact exists_spells_nil (r := .captureList) ⟨rfl, rfl, rfl⟩ h
  | readEnergy => exact exists_spells_nil (r := .readEnergy) ⟨rfl, rfl, rfl⟩ h
  | snapshot => exact exists_spells_nil (r := .snapshot) ⟨rfl, rfl, rfl⟩ h
  | readSnapshot => exact exists_spells_nil (r := .readSnapshot) ⟨rfl, rfl, rfl⟩ h
  | pulseStatus => exact exists_spells_nil (r := .pulseStatus) ⟨rfl, rfl, rfl⟩ h
  | leaseRelease => exact exists_spells_nil (r := .leaseRelease) ⟨rfl, rfl, rfl⟩ h
  | leaseStatus => exact exists_spells_nil (r := .leaseStatus) ⟨rfl, rfl, rfl⟩ h
  | commit => exact exists_spells_nil (r := .commit) ⟨rfl, rfl, rfl⟩ h
  | discard => exact exists_spells_nil (r := .discard) ⟨rfl, rfl, rfl⟩ h
  | readSet => exact exists_spells_nil (r := .readSet) ⟨rfl, rfl, rfl⟩ h
  | detectorStatus => exact exists_spells_nil (r := .detectorStatus) ⟨rfl, rfl, rfl⟩ h
  | portStatus => exact exists_spells_byte (r := .portStatus) (fun _ => ⟨rfl, rfl, rfl⟩) h
  | setSubscription => exact exists_spells_byte (r := .setSubscription) (fun _ => ⟨rfl, rfl, rfl⟩) h
  | setRetention => exact exists_spells_byte (r := .setRetention) (fun _ => ⟨rfl, rfl, rfl⟩) h
  | readEntries => exact exists_spells_byte (r := .readEntries) (fun _ => ⟨rfl, rfl, rfl⟩) h
  | markBaseline => exact exists_spells_byte (r := .markBaseline) (fun _ => ⟨rfl, rfl, rfl⟩) h
  | clearTally => exact exists_spells_byte (r := .clearTally) (fun _ => ⟨rfl, rfl, rfl⟩) h
  | openSession => exact exists_spells_two (r := .openSession) (fun _ _ => ⟨rfl, rfl, rfl⟩) h
  | setAttention => exact exists_spells_two (r := .setAttention) (fun _ _ => ⟨rfl, rfl, rfl⟩) h
  | leaseTake => exact exists_spells_two (r := .leaseTake) (fun _ _ => ⟨rfl, rfl, rfl⟩) h
  | releaseCapture => exact exists_spells_two (r := fun a b => .releaseCapture (word16 a b)) (fun a b => ⟨rfl, be16_word16 a b, rfl⟩) h
  | storeStatus => exact exists_spells_two (r := fun a b => .storeStatus (word16 a b)) (fun a b => ⟨rfl, be16_word16 a b, rfl⟩) h
  | restart => exact exists_spells_two (r := fun a b => .restart (word16 a b)) (fun a b => ⟨rfl, be16_word16 a b, rfl⟩) h
  | stageRead => exact exists_spells_three (r := .stageRead) (fun _ _ _ => ⟨rfl, rfl, rfl⟩) h
  | configRead => exact exists_spells_three (r := .configRead) (fun _ _ _ => ⟨rfl, rfl, rfl⟩) h
  | ackEntries =>
    match payload, (eq_of_beq h : payload.length = 4) with
    | [a, b, d, e], _ => exact ⟨.ackEntries (word32 a b d e), rfl, be32_word32 a b d e, rfl⟩
  | stageWrite =>
    match payload, (eq_of_beq h : payload.length = 5) with
    | [sec, record, field, a, b], _ =>
      exact ⟨.stageWrite sec record field (word16 a b), rfl, congrArg ([sec, record, field] ++ ·) (be16_word16 a b), rfl⟩
  | readFrames =>
    match payload, (eq_of_beq h : payload.length = 6) with
    | [a, b, part, d, e, count], _ =>
      refine ⟨.readFrames (word16 a b) part (word16 d e) count, rfl, ?_, rfl⟩
      simp only [reqPayload, be16_word16, List.cons_append, List.nil_append]
  | appendNote => exact ⟨.appendNote payload, rfl, rfl, decide_eq_true (eq_of_beq h)⟩
  | defineReadSet => exact ⟨.defineReadSet payload, rfl, rfl, h⟩

/-- What a payload of the right length reads as is the request that spells it. -/
theorem ReqCode.spells_of_read {c : ReqCode} {payload : List Byte} {r : Request} (hlen : c.lengthOk payload.length = true)
    (h : c.read payload = some r) : c.Spells payload r := by
  obtain ⟨r', hr'⟩ := c.exists_spells hlen
  obtain ⟨hcode, hpayload, hform⟩ := id hr'
  have hread : c.read payload = some r' := by rw [← hcode, ← hpayload]; exact ReqCode.read_reqPayload hform
  rwa [Option.some.inj (h.symm.trans hread)]

theorem RequestFrame.check_eq {f : RequestFrame} (h : f.sum = 0xFF) :
    f.check = checkByte (f.tag :: f.code :: f.length :: f.payload) := by
  have split : byteSum (f.tag :: f.code :: f.length :: f.payload) + f.check = 0xFF := by
    rw [← h, RequestFrame.sum, ← List.cons_append, ← List.cons_append, ← List.cons_append, byteSum_append]
    simp [byteSum]
  exact eq_sub_of_add_eq' split

/-- A frame with a good check byte whose payload reads as a request is the frame of that request. -/
theorem RequestFrame.eq_frameOf {f : RequestFrame} {c : ReqCode} {r : Request} (hsum : f.sum = 0xFF) (hcode : c.byte = f.code)
    (hr : c.Spells f.payload r) : f = frameOf f.tag r := by
  obtain ⟨tag, code, payload, check⟩ := f
  obtain ⟨rfl, rfl, -⟩ := hr
  obtain rfl : (reqCodeOf r).byte = code := hcode
  obtain rfl : check = (frameOf tag r).check := RequestFrame.check_eq hsum
  rfl

/-- Settles O52: the frame complete and in receipt, its sum, and the request read back; then the sum of a response. -/
theorem frameRoundTrip : Obligations.FrameRoundTrip := by
  refine ⟨fun tag r hr => ?request, fun tag r => ⟨_, rfl, byteSum_append_checkByte _⟩⟩
  have hlen : (frameOf tag r).payload.length ≤ 60 := reqPayload_length_le hr
  refine ⟨readReceipt_frame (f := frameOf tag r) 0x55 hlen, fun n => readReceipt_frame_take (f := frameOf tag r) 0x55 hlen,
    frameOf_sum tag r, reqCodeOf r, ReqCode.ofByte_byte _, ReqCode.lengthOk_reqPayload hr, ReqCode.read_reqPayload hr⟩

end Sys2Proof.Machine
end

section
/-! SUPPORT. Ports A and B byte by byte (9.2): the select, the first byte, the bytes of a request and the gap of 8 ms on every port. -/

namespace Sys2Proof.Machine

/-! ### The select and the first byte (R162, R163, R165) -/

theorem SyncLink.deselected_eq (k : SyncLink) : k.deselected = { k with
    phase := .none, receipt := [], sdo := none
    fetchPos := if k.phase = .fetch then 0 else k.fetchPos
    counters := if k.phase = .request then { k.counters with cut := min 255 (k.counters.cut + 1) } else k.counters } := by
  by_cases h : k.phase = .request
  · simp only [SyncLink.deselected, h, if_true]
    rfl
  · simp only [SyncLink.deselected, h, if_false]

theorem SyncLink.firstByte_badLead (k : SyncLink) (now : W32) {b : Byte} (h1 : b ≠ 0x55) (h0 : b ≠ 0) :
    k.firstByte now b = { k with
      phase := .ignore, receipt := [], counters := { k.counters with badLead := min 255 (k.counters.badLead + 1) } } :=
  (if_neg h1).trans (if_neg h0)

section
variable {s : State} {p : SyncId}

theorem exec_selectFall (hrun : s.pins.resetLow = false) (hsel : s.pins.selLow.get p = false) :
    exec (.selectFall p) s = .next ((s.setSelect p true).onLink p SyncLink.selected).drive := by
  show execSelectFall p s = _
  exact State.whenRunning_eq (s := s.setSelect p true) hrun (if_neg (ne_true_of_eq_false hsel))

theorem exec_selectRise (hrun : s.pins.resetLow = false) (hsel : s.pins.selLow.get p = true) :
    exec (.selectRise p) s = .next ((s.setSelect p false).onLink p SyncLink.deselected).drive := by
  show execSelectRise p s = _
  exact State.whenRunning_eq (s := s.setSelect p false) hrun (if_pos hsel)

theorem exec_firstByte (hrun : s.pins.resetLow = false) (hphase : (s.links.get p).phase = .first) (b : Byte) :
    exec (.firstByte p b) s = .next (s.onLink p fun k => k.firstByte s.front.tick b).drive := by
  show execFirstByte p b s = _
  exact State.whenRunning_eq hrun (if_pos hphase)

end

/-- Settles O46: the select's two edges, then the first byte by its value. -/
theorem syncTransaction : Obligations.SyncTransaction := by
  intro s p hrun k withLink
  refine ⟨fun hsel => ?fall, fun hsel => ?rise, fun hphase => ?request, fun hphase => ?fetch, fun b hphase h1 h0 => ?badLead⟩
  case fall => exact exec_selectFall hrun hsel
  case rise =>
    refine (exec_selectRise hrun hsel).trans ?_
    rw [State.onLink, SyncLink.deselected_eq]
    rfl
  case request => exact exec_firstByte hrun hphase 0x55
  case fetch => exact exec_firstByte hrun hphase 0
  case badLead =>
    refine (exec_firstByte hrun hphase b).trans ?_
    rw [State.onLink, SyncLink.firstByte_badLead _ _ h1 h0]

/-! ### The bytes of a request (R161, R163) -/

section
variable {s : State} {p : SyncId} {b : Byte}

theorem State.syncByte_more (h : readReceipt ((s.links.get p).receipt ++ [b]) = .more) :
    s.syncByte p b = s.onLink p fun k => { k with receipt := (s.links.get p).receipt ++ [b], lastByte := s.front.tick } := by
  simp only [State.syncByte, h]
  rfl

theorem State.syncByte_tooLong (h : readReceipt ((s.links.get p).receipt ++ [b]) = .tooLong) :
    s.syncByte p b = s.onLink p fun k => (k.onCounters LinkCounters.addLength).ignoreRest := by
  simp only [State.syncByte, h]

theorem State.syncByte_complete {f : RequestFrame} (h : readReceipt ((s.links.get p).receipt ++ [b]) = .complete f) :
    s.syncByte p b = (s.onLink p SyncLink.ignoreRest).arrive (syncPort p) f := by
  simp only [State.syncByte, h]

theorem exec_requestByte {t : State} (hrun : s.pins.resetLow = false) (hphase : (s.links.get p).phase = .request)
    (h : s.syncByte p b = t) : exec (.requestByte p b) s = .next t.drive := by
  show execRequestByte p b s = _
  exact State.whenRunning_eq hrun ((if_pos hphase).trans h)

end

/-- A request command on a running part is the arrival of its good frame. -/
theorem exec_commandOf_arrive {s : State} (hrun : s.pins.resetLow = false) (p : Port) (tag : Byte) (r : Request) :
    exec (commandOf p tag r) s = .next (s.arrive p (frameOf tag r)).drive := by
  rw [exec_commandOf_eq_request]
  exact State.whenRunning_of_running hrun _

/-! ### The gap of 8 ms (R163, R168) -/

theorem exec_frameGapTimeout_sync {s : State} {p : SyncId} (hrun : s.pins.resetLow = false) (hphase : (s.links.get p).phase = .request)
    (hgap : reached s.front.tick ((s.links.get p).lastByte + 8) = true) :
    exec (.frameGapTimeout (syncPort p)) s = .next (s.onLink p fun k => (k.onCounters LinkCounters.addTimeout).ignoreRest).drive := by
  have gap : s.syncGap p = _ := if_pos ⟨hphase, hgap⟩
  show execFrameGapTimeout (syncPort p) s = _
  cases p with
  | a => exact State.whenRunning_eq hrun gap
  | b => exact State.whenRunning_eq hrun gap

theorem exec_frameGapTimeout_async {s : State} (hrun : s.pins.resetLow = false) (hphase : s.portC.phase = .inFrame)
    (hgap : reached s.front.tick (s.portC.lastByte + 8) = true) :
    exec (.frameGapTimeout .c) s = .next (s.onPortC fun k => (k.onCounters LinkCounters.addTimeout).hunt).drive := by
  show execFrameGapTimeout .c s = _
  exact State.whenRunning_eq hrun (if_pos ⟨hphase, hgap⟩)

/-- Settles O47: a byte by what it makes of the receipt, then the gap on each port. -/
theorem requestBytes : Obligations.RequestBytes := by
  refine ⟨fun s p b hrun hphase => ⟨fun h => ?more, fun hl hb => ?tooLong, fun tag r hr hreceipt hb => ?complete⟩,
    fun s p hrun hphase hgap => exec_frameGapTimeout_sync hrun hphase hgap,
    fun s hrun hphase hgap => exec_frameGapTimeout_async hrun hphase hgap⟩
  case more => exact exec_requestByte hrun hphase (State.syncByte_more h)
  case tooLong => exact exec_requestByte hrun hphase (State.syncByte_tooLong (readReceipt_tooLong hl hb))
  case complete =>
    refine (exec_requestByte hrun hphase (State.syncByte_complete (readReceipt_frameOf hr hreceipt hb))).trans ?_
    exact (exec_commandOf_arrive (s := s.onLink p SyncLink.ignoreRest) hrun (syncPort p) tag r).symm

end Sys2Proof.Machine
end

section
/-! SUPPORT. Port C as it receives (9.3): lead patterns and the rate lock (R166, R167), and bytes at the locked rate (R168). -/

namespace Sys2Proof.Machine

/-! ### Lead patterns (R166) -/

/-- Within an eighth of the mean is from seven to nine eighths of it. -/
theorem agreesWithMean_iff (span i : Nat) : agreesWithMean span i = true ↔ 7 * span ≤ 32 * i ∧ 32 * i ≤ 9 * span := by
  rw [agreesWithMean, decide_eq_true_iff]
  omega

theorem isLeadPattern_iff (i1 i2 i3 i4 : Nat) (edge : Option Nat) : isLeadPattern i1 i2 i3 i4 edge = true ↔
    (∀ i ∈ [i1, i2, i3, i4], 7 * (i1 + i2 + i3 + i4) ≤ 32 * i ∧ 32 * i ≤ 9 * (i1 + i2 + i3 + i4))
      ∧ ∀ t, edge = some t → 7 * (i1 + i2 + i3 + i4) ≤ 32 * t := by
  cases edge <;>
    simp only [isLeadPattern, Bool.and_eq_true, agreesWithMean_iff, List.forall_mem_cons, List.not_mem_nil, false_imp_iff, implies_true,
      decide_eq_true_iff, Option.some.injEq, forall_eq', and_true, and_assoc, reduceCtorEq]

theorem goodSpan_iff (span : Nat) : goodSpan span = true ↔ 1200 * span ≤ 8000000000 ∧ 8000000000 ≤ 230400 * span := by
  rw [goodSpan, Bool.and_eq_true, decide_eq_true_iff, decide_eq_true_iff]

theorem goodSpan_eq_false {span : Nat} (h : ¬ (1200 * span ≤ 8000000000 ∧ 8000000000 ≤ 230400 * span)) : goodSpan span = false :=
  Bool.eq_false_iff.mpr fun hg => h ((goodSpan_iff span).mp hg)

theorem State.tracking_iff (s : State) : s.tracking = true ↔ s.config.committed.rateMode = 1 := beq_iff_eq

theorem State.tracking_eq_false {s : State} (h : s.config.committed.rateMode ≠ 1) : s.tracking = false :=
  Bool.eq_false_iff.mpr fun ht => h (s.tracking_iff.mp ht)

/-! ### The rate lock (R166, R167) -/

/-- A frame started on port C under a rate lock. -/
def State.lockedFrame (s : State) (span : Option Nat) : State :=
  { s with portC := { s.portC with rateSpan := span, phase := .inFrame, receipt := [0x55], lastByte := s.front.tick } }

/-- BAD_LEAD counted on port C. -/
def State.countBadLead (s : State) : State := s.onPortC fun k => k.onCounters LinkCounters.addBadLead

section
variable {s : State} {span old : Nat}

theorem State.leadSeen_unlocked (hlock : s.portC.rateSpan = none) :
    s.leadSeen span = if goodSpan span then s.lockedFrame (some span) else s := by
  simp only [State.leadSeen, hlock]
  rfl

theorem State.leadSeen_inFrame (hlock : s.portC.rateSpan = some old) (hphase : s.portC.phase = .inFrame) : s.leadSeen span = s := by
  simp only [State.leadSeen, hlock, hphase]

theorem State.leadSeen_hunting (hlock : s.portC.rateSpan = some old) (hphase : s.portC.phase = .hunting) :
    s.leadSeen span =
      if s.tracking then (if goodSpan span then s.lockedFrame (some span) else s.countBadLead) else s := by
  simp only [State.leadSeen, hlock, hphase]
  cases s.tracking <;> rfl

/-- In FIXED, and within a frame, a lead changes nothing once the rate is locked. -/
theorem State.leadSeen_ignored (hlock : s.portC.rateSpan = some old)
    (h : s.config.committed.rateMode ≠ 1 ∨ s.portC.phase = .inFrame) : s.leadSeen span = s := by
  cases hphase : s.portC.phase with
  | inFrame => exact State.leadSeen_inFrame hlock hphase
  | hunting =>
    have fixed : s.tracking = false := State.tracking_eq_false (h.resolve_right (by rw [hphase]; decide))
    rw [State.leadSeen_hunting hlock hphase, fixed, if_neg Bool.false_ne_true]

end

section
variable {s t : State} {i1 i2 i3 i4 : Nat} {edge : Option Nat}

theorem exec_leadPattern (hrun : s.pins.resetLow = false) (hp : isLeadPattern i1 i2 i3 i4 edge = true)
    (h : s.leadSeen (i1 + i2 + i3 + i4) = t) : exec (.leadPattern i1 i2 i3 i4 edge) s = .next t.drive := by
  show execLeadPattern i1 i2 i3 i4 edge s = _
  exact State.whenRunning_eq hrun ((if_pos hp).trans h)

theorem exec_leadPattern_none (hrun : s.pins.resetLow = false) (hp : ¬ isLeadPattern i1 i2 i3 i4 edge = true) :
    exec (.leadPattern i1 i2 i3 i4 edge) s = .next s.drive := by
  show execLeadPattern i1 i2 i3 i4 edge s = _
  exact State.whenRunning_eq hrun (if_neg hp)

end

/-! ### Bytes (R167, R168) -/

section
variable {s t : State} {b : Byte} {span : Nat}

theorem State.receiveByte_unlocked (hlock : s.portC.rateSpan = none) (high : Bool) : s.receiveByte b high = s := by
  simp only [State.receiveByte, hlock]

theorem State.receiveByte_hunting (hlock : s.portC.rateSpan = some span) (hphase : s.portC.phase = .hunting) (high : Bool) :
    s.receiveByte b high = if high then s.huntByte b else s := by
  simp only [State.receiveByte, hlock, hphase]

theorem State.receiveByte_inFrame (hlock : s.portC.rateSpan = some span) (hphase : s.portC.phase = .inFrame) (high : Bool) :
    s.receiveByte b high = if high then s.frameByte b else s.onPortC fun k => (k.onCounters LinkCounters.addCut).hunt := by
  simp only [State.receiveByte, hlock, hphase]

theorem State.huntByte_lead (hlock : s.portC.rateSpan = some span) (hmode : s.config.committed.rateMode ≠ 1) :
    s.huntByte 0x55 = s.lockedFrame (some span) := by
  rw [State.huntByte, State.tracking_eq_false hmode, State.lockedFrame, ← hlock]
  rfl

theorem State.huntByte_badLead (h : b ≠ 0x55 ∨ s.config.committed.rateMode = 1) : s.huntByte b = s.countBadLead := by
  refine if_neg fun hlead => ?_
  rw [Bool.and_eq_true, Bool.not_eq_true', beq_iff_eq] at hlead
  obtain ⟨hfixed, hb⟩ := hlead
  rcases h with hne | hmode
  · exact hne hb
  · exact Bool.false_ne_true (hfixed.symm.trans (s.tracking_iff.mpr hmode))

theorem State.frameByte_more (h : readReceipt (s.portC.receipt ++ [b]) = .more) :
    s.frameByte b = s.onPortC fun k => { k with receipt := s.portC.receipt ++ [b], lastByte := s.front.tick } := by
  simp only [State.frameByte, h]
  rfl

theorem State.frameByte_tooLong (h : readReceipt (s.portC.receipt ++ [b]) = .tooLong) :
    s.frameByte b = s.onPortC fun k => (k.onCounters LinkCounters.addLength).hunt := by
  simp only [State.frameByte, h]

theorem State.frameByte_complete {f : RequestFrame} (h : readReceipt (s.portC.receipt ++ [b]) = .complete f) :
    s.frameByte b = (s.onPortC AsyncLink.hunt).arrive .c f := by
  simp only [State.frameByte, h]

theorem exec_portCByte {high : Bool} (hrun : s.pins.resetLow = false) (h : s.receiveByte b high = t) :
    exec (.portCByte b high) s = .next t.drive := by
  show execPortCByte b high s = _
  exact State.whenRunning_eq hrun h

theorem exec_portCByte_hunting (hrun : s.pins.resetLow = false) (hlock : s.portC.rateSpan = some span)
    (hphase : s.portC.phase = .hunting) (h : s.huntByte b = t) : exec (.portCByte b true) s = .next t.drive :=
  exec_portCByte hrun ((State.receiveByte_hunting hlock hphase true).trans h)

theorem exec_portCByte_inFrame (hrun : s.pins.resetLow = false) (hlock : s.portC.rateSpan = some span)
    (hphase : s.portC.phase = .inFrame) (h : s.frameByte b = t) : exec (.portCByte b true) s = .next t.drive :=
  exec_portCByte hrun ((State.receiveByte_inFrame hlock hphase true).trans h)

end

/-- Settles O49: leads by the lock, the phase and the rate mode; then bytes by the lock, the phase and the stop bit. -/
theorem portCReceives : Obligations.PortCReceives := by
  unfold Obligations.PortCReceives
  intro started badLead
  refine ⟨?leads, fun s b hrun =>
    ⟨fun hlock high => exec_portCByte hrun (State.receiveByte_unlocked hlock high), fun span hlock => ?bytes⟩⟩
  case leads =>
    intro s i1 i2 i3 i4 edge hrun span pattern good run
    have hpattern : isLeadPattern i1 i2 i3 i4 edge = true ↔ pattern := isLeadPattern_iff ..
    have isGood : good → goodSpan span = true := (goodSpan_iff span).mpr
    have isBad : ¬ good → ¬ goodSpan span = true := fun hg h => hg ((goodSpan_iff span).mp h)
    refine ⟨fun hp => exec_leadPattern_none hrun (hp ∘ hpattern.mp), fun hp hg hlock => ?_, fun hp hg hlock => ?_,
      fun old hp hlock hphase hmode => ⟨fun hg => ?_, fun hg => ?_⟩, fun old hlock hor => ?_⟩
    · exact exec_leadPattern hrun (hpattern.mpr hp) ((State.leadSeen_unlocked hlock).trans (if_pos (isGood hg)))
    · exact exec_leadPattern hrun (hpattern.mpr hp) ((State.leadSeen_unlocked hlock).trans (if_neg (isBad hg)))
    · exact exec_leadPattern hrun (hpattern.mpr hp)
        ((State.leadSeen_hunting hlock hphase).trans ((if_pos (s.tracking_iff.mpr hmode)).trans (if_pos (isGood hg))))
    · exact exec_leadPattern hrun (hpattern.mpr hp)
        ((State.leadSeen_hunting hlock hphase).trans ((if_pos (s.tracking_iff.mpr hmode)).trans (if_neg (isBad hg))))
    · by_cases hp : isLeadPattern i1 i2 i3 i4 edge = true
      · exact exec_leadPattern hrun hp (State.leadSeen_ignored hlock hor)
      · exact exec_leadPattern_none hrun hp
  case bytes =>
    refine ⟨fun hphase hb hmode => ?_, fun hphase h => ?_, fun hphase => ?_, fun hphase => ?_, fun hphase h => ?_,
      fun hphase hl hb => ?_, fun tag r hr hphase hreceipt hb => ?_⟩
    · subst hb
      exact exec_portCByte_hunting hrun hlock hphase (State.huntByte_lead hlock hmode)
    · exact exec_portCByte_hunting hrun hlock hphase (State.huntByte_badLead h)
    · exact exec_portCByte hrun (State.receiveByte_hunting hlock hphase false)
    · exact exec_portCByte hrun (State.receiveByte_inFrame hlock hphase false)
    · exact exec_portCByte_inFrame hrun hlock hphase (State.frameByte_more h)
    · exact exec_portCByte_inFrame hrun hlock hphase (State.frameByte_tooLong (readReceipt_tooLong hl hb))
    · refine (exec_portCByte_inFrame hrun hlock hphase (State.frameByte_complete (readReceipt_frameOf hr hreceipt hb))).trans ?_
      exact (exec_commandOf_arrive (s := s.onPortC AsyncLink.hunt) hrun .c tag r).symm

end Sys2Proof.Machine
end

section
/-! SUPPORT. A complete frame given byte for byte (R161, R174): the five general checks in order (R175), and the frame that passes them all. -/

namespace Sys2Proof.Machine

/-! ### The five checks (R175) -/

section
variable {s : State} {p : Port} {f : RequestFrame} {c : ReqCode}

theorem State.judge_checkFail (h : f.sum ≠ 0xFF) : s.judge p f = .fails .checkFail := if_pos h

theorem State.judge_restarting (hsum : f.sum = 0xFF) (hd : s.config.restartDue ≠ none) : s.judge p f = .fails .restarting := by
  rw [State.judge, if_neg (not_not.mpr hsum), if_pos (Option.isSome_iff_ne_none.mpr hd)]

theorem ReqCode.ofByte_eq_none {b : Byte} (h : ∀ c : ReqCode, c.byte ≠ b) : ReqCode.ofByte b = none :=
  List.find?_eq_none.mpr fun c _ => mt eq_of_beq (h c)

theorem State.judge_badCode (hsum : f.sum = 0xFF) (hd : s.config.restartDue = none) (h : ∀ c : ReqCode, c.byte ≠ f.code) :
    s.judge p f = .fails .badCode := by
  simp only [State.judge, hsum, hd, ReqCode.ofByte_eq_none h, ne_eq, not_true_eq_false, Option.isSome_none, Bool.false_eq_true,
    if_false]

theorem State.judge_badLength (hsum : f.sum = 0xFF) (hd : s.config.restartDue = none) (hc : c.byte = f.code)
    (h : c.lengthOk f.payload.length = false) : s.judge p f = .fails .badLength := by
  simp only [State.judge, hsum, hd, ← hc, c.ofByte_byte, h, ne_eq, not_true_eq_false, Option.isSome_none, Bool.false_eq_true, if_false,
    Bool.not_false, if_true]

theorem State.judge_noSession (hsum : f.sum = 0xFF) (hd : s.config.restartDue = none) (hc : c.byte = f.code)
    (hlen : c.lengthOk f.payload.length = true) (hn : c.needsSession = true) (hs : s.session p = none) :
    s.judge p f = .fails .noSession := by
  simp only [State.judge, hsum, hd, ← hc, c.ofByte_byte, hlen, hn, hs, ne_eq, not_true_eq_false, Option.isSome_none,
    Bool.false_eq_true, if_false, Bool.not_true, Option.isNone_none, Bool.and_self, if_true]

end

/-! ### The frame's answer (R161, R169) -/

/-- A frame complete on a port whose transmitter, if it is port C's, is IDLE is taken at once (R161, R169). -/
theorem State.arrive_taken {s : State} {p : Port} (hc : p = .c → s.portC.sending = none) (f : RequestFrame) :
    s.arrive p f = (s.restartIdle p).takeRequestFrame p (s.deadlineFrom p) f := by
  cases p with
  | a => rfl
  | b => rfl
  | c => exact State.arriveOnC_idle (s := s.restartIdle .c) (hc rfl) _ _

theorem State.takeRequestFrame_fails {s : State} {p : Port} {f : RequestFrame} {st : Status} (h : s.judge p f = .fails st)
    (deadline : Option W32) : s.takeRequestFrame p deadline f = s.refuseFrame p f.tag st := by
  simp only [State.takeRequestFrame, h]

theorem exec_badFrame_arrive {s : State} (hrun : s.pins.resetLow = false) (p : Port) (tag code : Byte) (payload : List Byte)
    (check : Byte) : exec (.badFrame p tag code payload check) s = .next (s.arrive p ⟨tag, code, payload, check⟩).drive := by
  show execBadFrame p tag code payload check s = _
  exact State.whenRunning_of_running hrun _

section
variable {s : State} {p : Port} {tag code : Byte} {payload : List Byte} {check : Byte}

theorem exec_badFrame_fails {st : Status} (hrun : s.pins.resetLow = false) (hc : p = .c → s.portC.sending = none)
    (h : (s.restartIdle p).judge p ⟨tag, code, payload, check⟩ = .fails st) :
    exec (.badFrame p tag code payload check) s = .next ((s.restartIdle p).refuseFrame p tag st).drive := by
  rw [exec_badFrame_arrive hrun, State.arrive_taken hc, State.takeRequestFrame_fails h]

/-- A failure but that of the check sum is answered and leaves nothing else (R175). -/
theorem exec_badFrame_refused {st : Status} (hrun : s.pins.resetLow = false) (hc : p = .c → s.portC.sending = none)
    (h : (s.restartIdle p).judge p ⟨tag, code, payload, check⟩ = .fails st) (hst : st ≠ .checkFail) :
    exec (.badFrame p tag code payload check) s = .next ((s.restartIdle p).replied p tag (Reply.refuse st)) := by
  rw [exec_badFrame_fails hrun hc h, State.refuseFrame, if_neg hst]
  rfl

end

/-- Settles O51: the checks in their order, then the frame that is its request's. -/
theorem badFrames : Obligations.BadFrames := by
  intro s p tag code payload check hrun hc f base run
  refine ⟨fun hsum => ?checkFail, fun hsum hd => ?restarting, fun hsum hd hcode => ?badCode, fun c hsum hd hcode =>
    ⟨fun hlen => ?badLength, fun hlen hn hs => ?noSession, fun hlen r hr => ?passes⟩⟩
  case checkFail => exact exec_badFrame_fails hrun hc (State.judge_checkFail hsum)
  case restarting => exact exec_badFrame_refused hrun hc (State.judge_restarting hsum hd) (by decide)
  case badCode => exact exec_badFrame_refused hrun hc (State.judge_badCode hsum hd hcode) (by decide)
  case badLength => exact exec_badFrame_refused hrun hc (State.judge_badLength hsum hd hcode hlen) (by decide)
  case noSession =>
    have hnone : (s.restartIdle p).session p = none := by rw [State.restartIdle_session, hs]; rfl
    exact exec_badFrame_refused hrun hc (State.judge_noSession hsum hd hcode hlen hn hnone) (by decide)
  case passes =>
    have isRequest : f = frameOf tag r := RequestFrame.eq_frameOf hsum hcode (ReqCode.spells_of_read hlen hr)
    have arrives : run = .next (s.arrive p (frameOf tag r)).drive := isRequest ▸ exec_badFrame_arrive hrun p tag code payload check
    exact arrives.trans (exec_commandOf_arrive hrun p tag r).symm

end Sys2Proof.Machine
end

section
/-! SUPPORT. Read sets (R178, R179): codes of the catalogue and their sizes, and DEFINE_READ_SET check by check; and PORT_STATUS (R171). -/

namespace Sys2Proof.Machine

/-! ### The catalogue (10.3) -/

theorem Quantity.ofByte_byte (q : Quantity) : Quantity.ofByte q.byte = some q := by
  cases q with
  | value a => cases a <;> decide
  | _ => decide

theorem Quantity.ofByte_eq_none {b : Byte} (h : ∀ q : Quantity, q.byte ≠ b) : Quantity.ofByte b = none :=
  List.find?_eq_none.mpr fun q _ => mt eq_of_beq (h q)

theorem quantitiesOf_map_byte (qs : List Quantity) : quantitiesOf (qs.map Quantity.byte) = some qs := by
  induction qs with
  | nil => rfl
  | cons q qs ih => simp only [List.map_cons, quantitiesOf, q.ofByte_byte, ih]

/-- One code outside the catalogue spoils a list (R178). -/
theorem quantitiesOf_eq_none {codes : List Byte} {code : Byte} (hm : code ∈ codes) (h : ∀ q : Quantity, q.byte ≠ code) :
    quantitiesOf codes = none := by
  induction codes with
  | nil => cases hm
  | cons b rest ih =>
    rcases List.mem_cons.mp hm with rfl | hrest
    · simp only [quantitiesOf, Quantity.ofByte_eq_none h]
    · simp only [quantitiesOf, ih hrest]
      cases Quantity.ofByte b <;> rfl

theorem totalSize_eq_sum (qs : List Quantity) : totalSize qs = (qs.map Quantity.size).sum := by
  induction qs with
  | nil => rfl
  | cons q qs ih => rw [totalSize, ih, List.map_cons, List.sum_cons]

@[simp] theorem length_be16n (n : Nat) : (be16n n).length = 2 := rfl
@[simp] theorem length_be32 (x : W32) : (be32 x).length = 4 := rfl
@[simp] theorem length_be32i (x : Int) : (be32i x).length = 4 := rfl
@[simp] theorem length_be48 (x : W48) : (be48 x).length = 6 := rfl

theorem Summary.length_bytes (x : Summary) : x.bytes.length = 45 := by
  simp only [Summary.bytes, List.length_append, List.length_cons, List.length_nil, length_be32, length_be16n, length_be32i]

theorem length_accBytes (v : PerAcc W48) : (accBytes v).length = 24 := by
  simp only [accBytes, List.length_append, length_be48]

/-- Every quantity fills its catalogue size (R179). -/
theorem State.length_quantity (s : State) (q : Quantity) : (s.quantity q).length = q.size := by
  cases q with
  | wholeSummary => exact Summary.length_bytes _
  | values => exact length_accBytes _
  | _ => rfl

theorem State.codeBytes_byte (s : State) (q : Quantity) : s.codeBytes q.byte = s.quantity q := by
  simp only [State.codeBytes, q.ofByte_byte]

/-! ### DEFINE_READ_SET (R178) -/

section
variable {s : State} {p : Port} {x : Session} {codes : List Byte} {qs : List Quantity}

theorem reqDefineReadSet_unknown (hx : s.session p = some x) (h : quantitiesOf codes = none) :
    reqDefineReadSet p codes s = (s, Reply.refuse .badValue) := by
  simp only [reqDefineReadSet, State.withSession_some hx, h]

theorem reqDefineReadSet_tooLarge (hx : s.session p = some x) (h : codes = qs.map Quantity.byte)
    (hlarge : 120 < (qs.map Quantity.size).sum) : reqDefineReadSet p codes s = (s, Reply.refuse .badValue) := by
  subst h
  simp only [reqDefineReadSet, State.withSession_some hx, quantitiesOf_map_byte, totalSize_eq_sum]
  exact if_pos hlarge

theorem reqDefineReadSet_installs (hx : s.session p = some x) (h : codes = qs.map Quantity.byte)
    (hfits : (qs.map Quantity.size).sum ≤ 120) :
    reqDefineReadSet p codes s = (s.setSession p (some { x with readSet := codes }),
      Reply.ok [byteOf codes.length, byteOf (qs.map Quantity.size).sum]) := by
  subst h
  simp only [reqDefineReadSet, State.withSession_some hx, quantitiesOf_map_byte, totalSize_eq_sum]
  exact if_neg (Nat.not_lt.mpr hfits)

end

/-! ### PORT_STATUS (R171) -/

/-- PORT_STATUS needs no session: the deadline of one that is open is set, and the report is of the port as the frame found it. -/
theorem exec_portStatus {s t : State} {p : Port} {tag clear : Byte} {reply : Reply} (h : s.readyFor p)
    (hp : reqPortStatus p clear (s.onSession p (s.touched p)) = (t, reply)) :
    exec (.portStatus p tag clear) s = .next (t.replied p tag reply) := by
  refine (exec_commandOf s p tag (r := .portStatus clear) rfl h (fun hn => by cases hn)).trans ?_
  have performs : (s.restartIdle p).perform p (s.deadlineFrom p) (.portStatus clear) = (t, reply) := hp
  rw [State.serve, performs]
  rfl

theorem State.portStatusBytes_touched (s : State) (p : Port) :
    (s.onSession p (s.touched p)).portStatusBytes p = s.portStatusBytes p := by
  have same : ((s.onSession p (s.touched p)).session p).isSome = (s.session p).isSome := by
    rw [State.session, State.onSession_sessions, PerPort.get_set_self, Option.isSome_map]
    rfl
  cases p <;> simp only [State.portStatusBytes, same] <;> rfl

section
variable (s : State) (p : Port)

theorem reqPortStatus_keeps : reqPortStatus p 0 s = (s, Reply.ok (s.portStatusBytes p)) := rfl

theorem reqPortStatus_clears : reqPortStatus p 1 s = (s.clearCounters p, Reply.ok (s.portStatusBytes p)) := rfl

theorem reqPortStatus_badFlag {clear : Byte} (h : 1 < clear.toNat) : reqPortStatus p clear s = (s, Reply.refuse .badValue) := by
  rw [reqPortStatus, (isFlag_eq_false_iff clear).mpr h]
  rfl

theorem State.counters_clearCounters : (s.clearCounters p).counters p = .zero := by cases p <;> rfl

theorem State.ownCounter_clearCounters : (s.clearCounters p).ownCounter p = 0 := by cases p <;> rfl

end

/-- Settles O60: DEFINE_READ_SET accepted and refused, the catalogue, and PORT_STATUS by its flag. -/
theorem readSetsAndPortStatus : Obligations.ReadSetsAndPortStatus := by
  refine ⟨fun s p tag x codes qs ready hx hlen hcodes hfits => ?installs, fun s p tag x codes ready hx => ?refused,
    fun s q => ⟨s.codeBytes_byte q, s.length_quantity q⟩, fun s p tag ready => ?status⟩
  case installs =>
    exact exec_moved (r := .defineReadSet codes) ready hx (decide_eq_true hlen)
      (reqDefineReadSet_installs (State.session_setSession ..) hcodes hfits)
  case refused =>
    refine ⟨fun hlong => ?_, fun hlen code hm hout => ?_, fun qs hlen hcodes hlarge => ?_⟩
    · exact exec_badLength (r := .defineReadSet codes) ready hx (decide_eq_false (Nat.not_le.mpr hlong))
    · exact exec_onlyReplied (r := .defineReadSet codes) ready hx (decide_eq_true hlen)
        (reqDefineReadSet_unknown (State.session_setSession ..) (quantitiesOf_eq_none hm hout))
    · exact exec_onlyReplied (r := .defineReadSet codes) ready hx (decide_eq_true hlen)
        (reqDefineReadSet_tooLarge (State.session_setSession ..) hcodes hlarge)
  case status =>
    intro c base report
    have formed : Reply.ok (base.portStatusBytes p) = report := congrArg Reply.ok (s.portStatusBytes_touched p)
    exact ⟨exec_portStatus ready (formed ▸ reqPortStatus_keeps base p), exec_portStatus ready (formed ▸ reqPortStatus_clears base p),
      base.counters_clearCounters p, base.ownCounter_clearCounters p,
      fun clear h => exec_portStatus ready (reqPortStatus_badFlag base p h)⟩

end Sys2Proof.Machine
end

section
/-! SUPPORT. COMMIT (R144 to R146): the validation walk as a search in item order (R128), the lock rules (R125), the checks of an item and its
range value by value, and what a stage that passes brings about (R85, R108). -/

namespace Sys2Proof.Machine

/-! ### The item order (R128) -/

theorem mem_allPulseEngines (e : PulseId) : e ∈ allPulseEngines := by cases e <;> decide

theorem mem_allPorts (p : Port) : p ∈ allPorts := by cases p <;> decide

theorem Item.mem_all (i : Item) : i ∈ Item.all := by
  simp only [Item.all, List.mem_append, List.mem_flatMap, List.mem_map, List.mem_singleton]
  cases i with
  | front f => cases f <;> simp [frontFields]
  | det d f => cases f <;> simp [detFields, mem_allDetectors]
  | cap f => cases f <;> simp [capFields]
  | acc a f => cases f <;> simp [accFields, mem_allAccumulators]
  | pulse e f => cases f <;> simp [pulseFields, mem_allPulseEngines]
  | host p f => cases f <;> simp [hostFields, mem_allPorts]
  | rateMode => simp

/-- An item's address as one number, which orders the items by section, record and field. -/
def Item.place (i : Item) : Nat := (i.sectionNumber.toNat * 256 + i.record.toNat) * 256 + i.field.toNat

theorem Item.place_lt_iff (i j : Item) : i.place < j.place ↔
    i.sectionNumber < j.sectionNumber ∨ (i.sectionNumber = j.sectionNumber
      ∧ (i.record < j.record ∨ (i.record = j.record ∧ i.field < j.field))) := by
  simp only [Item.place]
  bv_omega

/-- Each item of the list comes before the next: within a section, and from one section's end to the next one's start. -/
theorem Item.all_isChain_place : Item.all.IsChain fun i j => i.place < j.place := by
  simp only [Item.all, List.isChain_append]
  decide

theorem Item.all_pairwise_place : Item.all.Pairwise fun i j => i.place < j.place := by
  have places : (Item.all.map Item.place).IsChain (· < ·) := (List.isChain_map _).mpr Item.all_isChain_place
  exact List.pairwise_map.mp (List.isChain_iff_pairwise.mp places)

/-! ### The validation walk (R144) -/

section
variable {token : Option Port} {committed stage : Table} {i : Item} {reason : FailReason}

/-- Pass 2 is the search for the first item with a fault. -/
theorem firstFault_eq_findSome? (token : Option Port) (stage : Table) (l : List Item) :
    firstFault token stage l = l.findSome? fun i => (itemFault token stage i).map (i, ·) := by
  induction l with
  | nil => rfl
  | cons i rest ih =>
    rw [firstFault, List.findSome?_cons, ih]
    cases itemFault token stage i <;> rfl

theorem firstFault_eq_none_iff {l : List Item} : firstFault token stage l = none ↔ ∀ i ∈ l, itemFault token stage i = none := by
  simp only [firstFault_eq_findSome?, List.findSome?_eq_none_iff, Option.map_eq_none_iff]

theorem firstFault_some {l : List Item} (h : firstFault token stage l = some (i, reason)) :
    itemFault token stage i = some reason
      ∧ ∃ before after, l = before ++ i :: after ∧ ∀ j ∈ before, itemFault token stage j = none := by
  rw [firstFault_eq_findSome?, List.findSome?_eq_some_iff] at h
  obtain ⟨before, k, after, hl, hk, clean⟩ := h
  obtain ⟨r, fault, hr⟩ := Option.map_eq_some_iff.mp hk
  obtain ⟨rfl, rfl⟩ := Prod.mk.inj hr
  exact ⟨fault, before, after, hl, fun j hj => Option.map_eq_none_iff.mp (clean j hj)⟩

/-- No lock is broken exactly when pass 1 finds none. -/
theorem find?_lockBroken_eq_none_iff :
    Item.all.find? (lockBroken committed stage) = none ↔ ∀ i, lockBroken committed stage i = false := by
  simp only [List.find?_eq_none, Item.mem_all, true_implies, Bool.not_eq_true]

theorem validateStage_eq_none_iff : validateStage token committed stage = none ↔
    (∀ i, lockBroken committed stage i = false) ∧ ∀ i, itemFault token stage i = none := by
  rw [← find?_lockBroken_eq_none_iff, validateStage]
  cases Item.all.find? (lockBroken committed stage) with
  | some i => simp only [reduceCtorEq, false_and]
  | none => simp only [firstFault_eq_none_iff, Item.mem_all, true_implies, true_and]

/-- What a failing stage is answered with: the first broken lock, or with no lock broken the first item with a fault. -/
theorem validateStage_some (h : validateStage token committed stage = some (i, reason)) :
    (reason = .lock ∧ lockBroken committed stage i = true
      ∧ ∃ before after, Item.all = before ++ i :: after ∧ ∀ j ∈ before, lockBroken committed stage j = false)
    ∨ ((∀ j, lockBroken committed stage j = false) ∧ itemFault token stage i = some reason
      ∧ ∃ before after, Item.all = before ++ i :: after ∧ ∀ j ∈ before, itemFault token stage j = none) := by
  rw [validateStage] at h
  cases hlock : Item.all.find? (lockBroken committed stage) with
  | some k =>
    rw [hlock] at h
    obtain ⟨rfl, rfl⟩ := Prod.mk.inj (Option.some.inj h)
    obtain ⟨broken, before, after, hall, whole⟩ := List.find?_eq_some_iff_append.mp hlock
    exact .inl ⟨rfl, broken, before, after, hall, fun j hj => Bool.not_eq_true' _ ▸ whole j hj⟩
  | none =>
    rw [hlock] at h
    exact .inr ⟨find?_lockBroken_eq_none_iff.mp hlock, firstFault_some h⟩

end

/-! ### The lock rules (R125) -/

theorem Table.locked_iff (t : Table) (a : AccId) : t.locked a = true ↔ (t.energy.acc.get a).lock = 1 := beq_iff_eq

/-- A binding code below 4 is the number of its accumulator. -/
theorem boundAcc_eq_some_iff (binding : W16) (a : AccId) : boundAcc binding = some a ↔ binding.toNat = a.number := by
  rw [boundAcc]
  split_ifs with h0 h1 h2 h3
  · subst h0; cases a <;> decide
  · subst h1; cases a <;> decide
  · subst h2; cases a <;> decide
  · subst h3; cases a <;> decide
  · have other : ¬ binding.toNat < 4 := by bv_omega
    have accumulator : a.number < 4 := by cases a <;> decide
    exact iff_of_false nofun fun h => other (h ▸ accumulator)

section
variable (committed stage : Table)

theorem lockBroken_lock_iff (a : AccId) : lockBroken committed stage (.acc a .lock) = true ↔
    (committed.energy.acc.get a).lock = 1 ∧ stage.get (.acc a .lock) = 0 := by
  rw [lockBroken, Bool.and_eq_true, Table.locked_iff, beq_iff_eq]

theorem lockBroken_acc_iff (a : AccId) {f : AccField} (hf : f ≠ .lock) : lockBroken committed stage (.acc a f) = true ↔
    (committed.energy.acc.get a).lock = 1 ∧ stage.get (.acc a f) ≠ committed.get (.acc a f) := by
  cases f with
  | lock => exact absurd rfl hf
  | _ => rw [lockBroken, Bool.and_eq_true, Table.locked_iff, bne_iff_ne]; exact hf

theorem lockBroken_pulse_iff (e : PulseId) (f : PulseField) : lockBroken committed stage (.pulse e f) = true ↔
    ∃ a : AccId, (committed.energy.acc.get a).lock = 1
      ∧ (committed.energy.pulse.get e).binding.toNat = a.number ∧ stage.get (.pulse e f) ≠ committed.get (.pulse e f) := by
  simp only [lockBroken, ← boundAcc_eq_some_iff]
  cases boundAcc (committed.energy.pulse.get e).binding with
  | none => simp
  | some a => simp [Table.locked_iff]

/-- Locks guard the records of their accumulators and of the engines bound to these, and nothing else. -/
theorem lockBroken_iff (i : Item) : lockBroken committed stage i = true ↔
    ∃ a : AccId, (committed.energy.acc.get a).lock = 1
      ∧ ((i = .acc a .lock ∧ stage.get i = 0)
        ∨ (∃ f, f ≠ .lock ∧ i = .acc a f ∧ stage.get i ≠ committed.get i)
        ∨ ∃ e f, i = .pulse e f ∧ (committed.energy.pulse.get e).binding.toNat = a.number ∧ stage.get i ≠ committed.get i) := by
  cases i with
  | acc a f =>
    by_cases hf : f = .lock
    · subst hf
      rw [lockBroken_lock_iff]
      simp
    · rw [lockBroken_acc_iff committed stage a hf]
      simp [hf]
  | pulse e f =>
    rw [lockBroken_pulse_iff]
    simp
  | _ => simp [lockBroken]

end

/-! ### The checks of an item (R62, R144) -/

theorem levelsInOrder_eq_false_iff (d : DetId) (r : DetCfg) : levelsInOrder d r = false ↔ r.enable = 1
    ∧ if d = .uDip ∨ d = .uIntr then r.release.toNat ≤ r.onset.toNat else r.onset.toNat ≤ r.release.toNat := by
  simp only [levelsInOrder, ← DetId.isBelow_iff]
  cases d.isBelow <;> simp

section
variable {token : Option Port} {stage : Table} {i : Item} {reason : FailReason}

theorem itemFault_of_outOfRange (h : i.inRange (stage.get i) = false) : itemFault token stage i = some .range := by
  simp only [itemFault, h, Bool.not_false, if_true]

theorem itemFault_release_iff {d : DetId} (h : (Item.det d .release).inRange (stage.get (.det d .release)) = true) :
    itemFault token stage (.det d .release) = some reason ↔
      reason = .levelOrder ∧ levelsInOrder d (stage.det.get d) = false := by
  simp only [itemFault, h]
  cases levelsInOrder d (stage.det.get d) <;> simp [eq_comm]

theorem itemFault_holdPermit_iff {p : Port} (h : (Item.host p .holdPermit).inRange (stage.get (.host p .holdPermit)) = true) :
    itemFault token stage (.host p .holdPermit) = some reason ↔
      reason = .holdInUse ∧ stage.get (.host p .holdPermit) = 0 ∧ token = some p := by
  simp only [itemFault, h]
  by_cases inUse : stage.get (.host p .holdPermit) = 0 ∧ token = some p
  · simp [inUse, eq_comm]
  · simp only [Bool.and_eq_true, beq_iff_eq, inUse, and_false, if_false, Bool.not_true, Bool.false_eq_true, reduceCtorEq]

/-- No other item has a check but that of its range. -/
theorem itemFault_eq_none (h : i.inRange (stage.get i) = true) (hd : ∀ d, i ≠ .det d .release) (hp : ∀ p, i ≠ .host p .holdPermit) :
    itemFault token stage i = none := by
  simp only [itemFault, h, Bool.not_true, Bool.false_eq_true, if_false]

end

/-- An item out of its range fails for that, whatever else it fails. -/
theorem itemFault_iff (token : Option Port) (stage : Table) (i : Item) (reason : FailReason) : itemFault token stage i = some reason ↔
    (reason = .range ∧ i.inRange (stage.get i) = false)
    ∨ (i.inRange (stage.get i) = true
      ∧ ((reason = .levelOrder ∧ ∃ d, i = .det d .release ∧ (stage.det.get d).enable = 1
          ∧ (if d = .uDip ∨ d = .uIntr then (stage.det.get d).release.toNat ≤ (stage.det.get d).onset.toNat
            else (stage.det.get d).onset.toNat ≤ (stage.det.get d).release.toNat))
        ∨ (reason = .holdInUse ∧ ∃ p, i = .host p .holdPermit ∧ stage.get i = 0 ∧ token = some p))) := by
  simp only [← levelsInOrder_eq_false_iff]
  cases h : i.inRange (stage.get i) with
  | false =>
    rw [itemFault_of_outOfRange h]
    simp [@eq_comm _ reason]
  | true =>
    by_cases hd : ∃ d, i = .det d .release
    · obtain ⟨d, rfl⟩ := hd
      rw [itemFault_release_iff h]
      simp
    by_cases hp : ∃ p, i = .host p .holdPermit
    · obtain ⟨p, rfl⟩ := hp
      rw [itemFault_holdPermit_iff h]
      simp
    · rw [itemFault_eq_none h (not_exists.mp hd) (not_exists.mp hp)]
      simp [not_exists.mp hd, not_exists.mp hp]

theorem itemFault_ne_lock (token : Option Port) (stage : Table) (i : Item) : itemFault token stage i ≠ some .lock := by
  simp only [ne_eq, itemFault_iff, reduceCtorEq, false_and, and_false, or_self, not_false_eq_true]

/-! ### The ranges of the catalogue (7.1) -/

/-- A value of a flag's range is 0 or 1. -/
theorem flagValue_iff (v : W16) : v.toNat ≤ 1 ↔ v = 0 ∨ v = 1 := by bv_omega

/-- The pretrigger's range is the multiples of 64 up to 960. -/
theorem pretrigger_iff (v : W16) : (64 ≤ v.toNat ∧ v.toNat ≤ 960) ∧ v.toNat % 64 = 0 ↔
    ∃ n, 1 ≤ n ∧ n ≤ 15 ∧ v = BitVec.ofNat 16 (64 * n) := by
  constructor
  · rintro ⟨⟨hlow, hhigh⟩, hdvd⟩
    have whole : 64 * (v.toNat / 64) = v.toNat := Nat.mul_div_cancel' (Nat.dvd_of_mod_eq_zero hdvd)
    exact ⟨v.toNat / 64, by omega, by omega, by rw [whole, BitVec.ofNat_toNat, BitVec.setWidth_eq]⟩
  · rintro ⟨n, hlow, hhigh, rfl⟩
    rw [BitVec.toNat_ofNat]
    omega

/-! ### A stage that passes (R85, R108, R146) -/

theorem State.handCommitted_eq (s : State) (old new : Table) : s.handCommitted old new = { s with
    store := { s.store with inbox := s.store.inbox ++ if old.cap = new.cap then [] else [CapEvent.config new.cap] }
    energy := { s.energy with handed := s.energy.handed ++ ([.config new.energy] : List EnergyEvent) } } := by
  rw [State.handCommitted]
  split
  · rw [List.append_nil]
  · rfl

section
variable {s : State} {t : Tenure}

theorem reqCommit_carriedOut (hl : s.lease = some t) (passes : validateStage s.token s.config.committed t.stage = none)
    (hw : s.journal.waiting = []) (ht : s.journal.tally.isEmpty = true) (room : s.journal.entries.length < journalCapacity) :
    let old := s.config.committed
    let generation := s.config.generation + 1
    let sections := changedSections old t.stage
    let accs := resetMask old.energy t.stage.energy
    reqCommit t.holder s =
      (State.handCommitted { s.installTable t.stage with
          journal := s.journal.push s.front.tick s.front.hc (.configCommit generation t.holder sections accs) } old t.stage,
        Reply.ok (be16 generation ++ [sections, accs] ++ be32 s.journal.nextSeq)) := by
  intro old generation sections accs
  have stored := State.appendNow_alone (s := s.installTable t.stage) hw ht room (.configCommit generation t.holder sections accs)
  rw [reqCommit, State.withLease_holder hl, passes]
  exact congrArg (fun out : State × Option W32 =>
    (out.1.handCommitted old t.stage, Reply.ok (be16 generation ++ [sections, accs] ++ be32 (seqOrZero out.2)))) stored

theorem reqCommit_fails (hl : s.lease = some t) {i : Item} {reason : FailReason}
    (fails : validateStage s.token s.config.committed t.stage = some (i, reason)) :
    reqCommit t.holder s = (s, Reply.carry (if reason = .lock then .locked else .invalid)
      [i.sectionNumber, i.record, i.field, reason.code]) := by
  rw [reqCommit, State.withLease_holder hl, fails]

end

/-- Settles O40: COMMIT of the holder and of anyone else, the validation walk, and what it checks. -/
theorem commitCarriedOut : Obligations.CommitCarriedOut := by
  refine ⟨fun s p tag x t ready hx hl hp => ?holder, fun s p tag x ready hx h => ?other, fun token committed stage =>
    ⟨validateStage_eq_none_iff, fun i reason h => ?named⟩, Item.mem_all, ?order, fun token committed stage i reason h => ?first,
    lockBroken_iff, itemFault_iff, fun i v => ?ranges⟩
  case holder =>
    subst hp
    have held : (s.setSession t.holder (some (s.touched t.holder x))).lease = some t := hl
    refine ⟨fun passes hw ht room => ?_, fun i reason fails => ?_⟩
    · intro old new generation sections accs
      refine exec_replied (r := .commit) ready hx rfl ((reqCommit_carriedOut held passes hw ht room).trans ?_)
      rw [State.handCommitted_eq]
      rfl
    · exact exec_onlyReplied (r := .commit) ready hx rfl (reqCommit_fails held fails)
  case other =>
    have free : (s.setSession p (some (s.touched p x))).holdsLease p = false := State.holdsLease_eq_false h
    exact exec_onlyReplied (r := .commit) ready hx rfl (State.withLease_other free _)
  case named =>
    rcases validateStage_some h with ⟨lock, broken, -⟩ | ⟨whole, fault, -⟩
    · exact .inl ⟨lock, broken⟩
    · exact .inr ⟨whole, fault⟩
  case order => simpa only [Item.place_lt_iff] using Item.all_pairwise_place
  case first =>
    rcases validateStage_some h with ⟨lock, -, before, after, hall, whole⟩ | ⟨-, fault, before, after, hall, clean⟩
    · exact ⟨before, after, hall, .inl ⟨lock, whole⟩⟩
    · exact ⟨before, after, hall, .inr ⟨fun hr => itemFault_ne_lock token stage i (hr ▸ fault), clean⟩⟩
  case ranges =>
    cases i with
    | front f => cases f with
      | nominal => simp only [Item.inRange, Bool.or_eq_true, beq_iff_eq]; bv_omega
      | _ => exact iff_of_true rfl trivial
    | det d f => cases f with
      | onset | release => exact iff_of_true rfl trivial
      | onsetCount | releaseCount => simp [Item.inRange]
      | enable | trigOnset | trigRelease => simp [Item.inRange, flagValue_iff]
    | cap f => cases f with
      | pre => simp [Item.inRange, pretrigger_iff]
      | chainLimit | xtrigIn => simp [Item.inRange]
      | armed | xtrigOut => simp [Item.inRange, flagValue_iff]
    | acc a f => cases f with
      | creepLevel => exact iff_of_true rfl trivial
      | lock => simp [Item.inRange, flagValue_iff]
      | source | direction | creepCount => simp [Item.inRange]
    | pulse e f => cases f with
      | binding => simp [Item.inRange]
      | k => simp only [Item.inRange, decide_eq_true_iff]; bv_omega
      | width => simp only [Item.inRange, Bool.or_eq_true, beq_iff_eq, or_assoc]; bv_omega
    | host p f => cases f with
      | idleLimit => simp [Item.inRange]
      | holdPermit => simp [Item.inRange, flagValue_iff]
    | rateMode => simp [Item.inRange, flagValue_iff]

end Sys2Proof.Machine
end

section
/-! SUPPORT. The queue of commands, which only its sender writes (log 22): the blocks' work leaves it as it is. -/

namespace Sys2Proof.Machine

/-- Work done once for each of several things. -/
theorem foldl_pending {α : Type} {f : State → α → State} (h : ∀ s a, (f s a).pending = s.pending) (l : List α) (s : State) :
    (l.foldl f s).pending = s.pending := by
  induction l generalizing s with
  | nil => rfl
  | cons a l ih => exact (ih (f s a)).trans (h s a)

/-- Work done or left. -/
theorem ite_pending {s t : State} {c : Prop} [Decidable c] (h : t.pending = s.pending) :
    (if c then t else s).pending = s.pending := by
  split
  · exact h
  · rfl

/-! ### The Front End and the Detector Bank -/

theorem State.closeHalfCycle_pending (s : State) (raw : Frame) (polarity : Polarity) (synthetic : Bool) :
    (s.closeHalfCycle raw polarity synthetic).pending = s.pending := by
  simp only [State.closeHalfCycle, State.handLineEvent_eq]

theorem State.takeFrame_pending (s : State) (raw : Frame) : (s.takeFrame raw).pending = s.pending := by
  rw [State.takeFrame_eq]
  show State.pending (if _ then _ else _) = _
  split
  · exact State.closeHalfCycle_pending _ _ _ _
  · split
    · exact State.closeHalfCycle_pending _ _ _ _
    · rfl

theorem State.judgeDetector_pending (close : HandedClose) (s : State) (d : DetId) :
    (s.judgeDetector close d).pending = s.pending := by
  unfold State.judgeDetector
  split
  · rfl
  · rw [State.openEpisode_eq]; rfl
  · rw [State.closeEpisode_eq]; rfl

theorem State.updateDetector_pending (close : HandedClose) (s : State) (d : DetId) :
    (s.updateDetector close d).pending = s.pending := by
  rw [State.updateDetector_eq]; rfl

theorem State.takeDetectorClose_pending (s : State) (close : HandedClose) : (s.takeDetectorClose close).pending = s.pending :=
  (foldl_pending (State.judgeDetector_pending close) _ _).trans (foldl_pending (State.updateDetector_pending close) _ s)

/-! ### The Energy Block -/

theorem State.takeEnergyClose_pending (s : State) (close : HandedClose) : (s.takeEnergyClose close).pending = s.pending := by
  obtain ⟨_, _, _, after, -, -⟩ := s.takeEnergyClose_eq close
  rw [after]; rfl

theorem State.takeS3_pending (s : State) (new : EnergyCfg) : (s.takeS3 new).pending = s.pending := by
  rw [State.takeS3_eq]

/-! ### The Capture Store -/

theorem State.takeSlot_pending (s : State) (busy : List SlotId) (tick hc : W32) : (s.takeSlot busy tick hc).1.pending = s.pending := by
  rcases s.takeSlot_cases busy tick hc with ⟨i, -, h⟩ | ⟨-, ⟨-, h⟩ | ⟨c, -, h⟩⟩ <;> rw [h]
  rfl

theorem State.armStore_pending (s : State) (tick hc : W32) : (s.armStore tick hc).pending = s.pending := by
  have slot := s.takeSlot_pending [] tick hc
  rcases s.armStore_cases tick hc with ⟨t, i, ht, h⟩ | ⟨t, ht, h⟩ <;> (rw [h]; rw [ht] at slot; exact slot)

theorem State.retryStarved_pending (s : State) : s.retryStarved.pending = s.pending := by
  obtain ⟨_, _, _, h, -⟩ := s.retryStarved_shape
  rw [h]

theorem State.completeCapture_pending (s : State) (c : Capture) (tick hc : W32) :
    (s.completeCapture c tick hc).pending = s.pending := by
  simp only [State.completeCapture]
  split
  · exact State.armStore_pending _ _ _
  · rfl

theorem State.partFull_pending (s : State) (c : Capture) (tick hc : W32) : (s.partFull c tick hc).pending = s.pending := by
  have slot := s.takeSlot_pending c.slots tick hc
  unfold State.partFull
  split
  · split <;> (rename_i ht; rw [ht] at slot)
    · exact slot
    · exact (State.completeCapture_pending _ _ _ _).trans slot
  · exact s.completeCapture_pending c tick hc

theorem State.captureFrame_pending (s : State) (f : StampedFrame) : (s.captureFrame f).pending = s.pending := by
  unfold State.captureFrame
  split
  · rfl
  · simp only []
    split
    · exact State.partFull_pending _ _ _ _
    · rfl
  · rfl
  · rfl

theorem State.takeTrigger_pending (s : State) (source : TrigSource) (tick hc : W32) :
    (s.takeTrigger source tick hc).pending = s.pending := by
  unfold State.takeTrigger
  split <;> rfl

theorem State.drawTrigger_pending {s t : State} {g : WaitingTrigger} {rest : List CapEvent} (h : s.drawTrigger = some (g, rest, t)) :
    t.pending = s.pending := by
  unfold State.drawTrigger at h
  split at h <;> cases h <;> rfl

theorem State.senseXtrig_pending (s : State) (high : Bool) : (s.senseXtrig high).pending = s.pending := by
  simp only [State.senseXtrig]
  split
  · rfl
  · exact ite_pending rfl

theorem State.takeS2_pending (s : State) (new : CapCfg) : (s.takeS2 new).pending = s.pending := by
  simp only [State.takeS2]
  split
  · split <;> rfl
  · split
    · split
      · exact State.armStore_pending _ _ _
      · rfl
    · split
      · rfl
      · exact State.retryStarved_pending _

/-! ### The Lease Arbiter and the end of a session -/

theorem State.passLease_pending (s : State) : s.passLease.pending = s.pending := by
  rcases s.passLease_cases with ⟨-, h⟩ | ⟨w, rest, -, h⟩ <;> rw [h]
  rfl

theorem State.endTenure_pending (s : State) (event : LeaseEventKind) (holder : Port) :
    (s.endTenure event holder).pending = s.pending := State.passLease_pending _

theorem State.takeLease_pending (s : State) (p : Port) (seconds : Nat) (wait : Bool) :
    (s.takeLease p seconds wait).1.pending = s.pending := by
  unfold State.takeLease
  split
  · rfl
  · split
    · rfl
    · split <;> rfl

theorem State.endSession_pending (s : State) (p : Port) (event : SessionEventKind) :
    (s.endSession p event).1.pending = s.pending := by
  obtain ⟨_, _, _, torn, -⟩ := s.tearDown_shape p
  rw [State.endSession_eq, State.appendNow_pending, torn]

/-! ### Requests -/

theorem State.withSession_pending {s : State} {p : Port} {f : Session → State × Reply}
    (h : ∀ x, (f x).1.pending = s.pending) : (s.withSession p f).1.pending = s.pending := by
  unfold State.withSession
  split
  · rfl
  · exact h _

theorem State.withLease_pending {s : State} {p : Port} {f : Tenure → State × Reply}
    (h : ∀ t, (f t).1.pending = s.pending) : (s.withLease p f).1.pending = s.pending := by
  unfold State.withLease
  split
  · rfl
  · split
    · exact h _
    · rfl

theorem State.opened_pending (s : State) (p : Port) (x : Session) (hold : Bool) : (s.opened p x hold).pending = s.pending := by
  cases hold <;> rfl

theorem reqOpenSession_pending (p : Port) (deadline : Option W32) (start retention : Byte) (s : State) :
    (reqOpenSession p deadline start retention s).1.pending = s.pending := by
  unfold reqOpenSession
  split
  · rfl
  · split
    · rfl
    · split
      · rfl
      · rw [State.openSession_eq, State.appendNow_pending, State.opened_pending, State.settle_pending]

theorem reqPortStatus_pending (p : Port) (clear : Byte) (s : State) : (reqPortStatus p clear s).1.pending = s.pending := by
  unfold reqPortStatus
  split
  · rfl
  · exact ite_pending (s.clearCounters_pending p)

theorem reqSetRetention_pending (p : Port) (retention : Byte) (s : State) :
    (reqSetRetention p retention s).1.pending = s.pending :=
  State.withSession_pending fun _ => by
    split
    · rfl
    · split <;> split <;> rfl

theorem reqAckEntries_pending (p : Port) (seq : W32) (s : State) : (reqAckEntries p seq s).1.pending = s.pending :=
  State.withSession_pending fun _ => by
    simp only []
    split
    · rfl
    · split
      · rfl
      · split <;> rfl

theorem reqAppendNote_pending (p : Port) (data : List Byte) (s : State) : (reqAppendNote p data s).1.pending = s.pending := by
  have stored := s.appendNow_pending (.note p data)
  unfold reqAppendNote
  split <;> (rename_i h; rw [h] at stored; exact stored)

theorem reqReleaseCapture_pending (p : Port) (id : W16) (s : State) : (reqReleaseCapture p id s).1.pending = s.pending := by
  unfold reqReleaseCapture
  split
  · rfl
  · split
    · rfl
    · split
      · rfl
      · exact ite_pending (State.retryStarved_pending _)

theorem reqSnapshot_pending (p : Port) (s : State) : (reqSnapshot p s).1.pending = s.pending := by
  unfold reqSnapshot
  split <;> rfl

theorem reqLeaseTake_pending (p : Port) (seconds wait : Byte) (s : State) :
    (reqLeaseTake p seconds wait s).1.pending = s.pending := by
  simp only [reqLeaseTake]
  split
  · rfl
  · exact State.takeLease_pending _ _ _ _

theorem reqLeaseRelease_pending (p : Port) (s : State) : (reqLeaseRelease p s).1.pending = s.pending := by
  simp only [reqLeaseRelease]
  split
  · exact State.endTenure_pending _ _ _
  · split <;> rfl

theorem reqStageWrite_pending (p : Port) (sec record field : Byte) (value : W16) (s : State) :
    (reqStageWrite p sec record field value s).1.pending = s.pending :=
  State.withLease_pending fun _ => by
    split
    · rfl
    · split <;> rfl

theorem reqCommit_pending (p : Port) (s : State) : (reqCommit p s).1.pending = s.pending :=
  State.withLease_pending fun t => by
    split
    · rfl
    · show ((((s.installTable t.stage).appendNow _).1).handCommitted _ _).pending = _
      rw [State.handCommitted_eq]
      exact State.appendNow_pending (s.installTable t.stage) _

theorem reqClearTally_pending (p : Port) (mask : Byte) (s : State) : (reqClearTally p mask s).1.pending = s.pending :=
  State.withLease_pending fun _ => by
    split
    · rfl
    · exact State.appendNow_pending _ _

theorem reqDefineReadSet_pending (p : Port) (codes : List Byte) (s : State) :
    (reqDefineReadSet p codes s).1.pending = s.pending :=
  State.withSession_pending fun _ => by
    split
    · rfl
    · split <;> rfl

/-- No request reaches the queue of commands. -/
theorem State.perform_pending (s : State) (p : Port) (deadline : Option W32) (r : Request) :
    (s.perform p deadline r).1.pending = s.pending := by
  cases r with
  | openSession start retention => exact reqOpenSession_pending p deadline start retention s
  | closeSession => exact State.withSession_pending fun _ => s.endSession_pending p .closed
  | portStatus clear => exact reqPortStatus_pending p clear s
  | setAttention mask watermark => exact State.withSession_pending fun _ => by split <;> rfl
  | attentionStatus => exact State.withSession_pending fun _ => rfl
  | setSubscription mask => exact State.withSession_pending fun _ => rfl
  | setRetention retention => exact reqSetRetention_pending p retention s
  | readEntries countAndAck => exact State.withSession_pending fun _ => by split <;> rfl
  | ackEntries seq => exact reqAckEntries_pending p seq s
  | rewind => exact State.withSession_pending fun _ => rfl
  | journalStatus => exact State.withSession_pending fun _ => rfl
  | appendNote data => exact reqAppendNote_pending p data s
  | captureNow => exact s.takeTrigger_pending _ _ _
  | captureList => rfl
  | readFrames id part offset count => exact congrArg State.pending (reqReadFrames_state id part offset count s)
  | releaseCapture id => exact reqReleaseCapture_pending p id s
  | storeStatus id => exact congrArg State.pending (reqStoreStatus_state id s)
  | readEnergy => exact State.withSession_pending fun _ => rfl
  | markBaseline mask => exact State.withSession_pending fun _ => by split <;> rfl
  | snapshot => exact reqSnapshot_pending p s
  | readSnapshot => rfl
  | pulseStatus => rfl
  | leaseTake seconds wait => exact reqLeaseTake_pending p seconds wait s
  | leaseRelease => exact reqLeaseRelease_pending p s
  | leaseStatus => rfl
  | stageWrite sec record field value => exact reqStageWrite_pending p sec record field value s
  | stageRead sec record field => exact State.withLease_pending fun _ => by split <;> rfl
  | configRead sec record field => exact congrArg State.pending (reqConfigRead_state sec record field s)
  | commit => exact reqCommit_pending p s
  | discard => exact State.withLease_pending fun _ => rfl
  | clearTally mask => exact reqClearTally_pending p mask s
  | restart generation => exact State.withLease_pending fun _ => by split <;> rfl
  | defineReadSet codes => exact reqDefineReadSet_pending p codes s
  | readSet => exact State.withSession_pending fun _ => rfl
  | detectorStatus => rfl

/-! ### Frames and bytes -/

theorem State.refuseFrame_pending (s : State) (p : Port) (tag : Byte) (st : Status) :
    (s.refuseFrame p tag st).pending = s.pending :=
  (State.answer_pending _ p _).trans (ite_pending (s.onCounters_pending p _))

theorem State.takeRequestFrame_pending (s : State) (p : Port) (deadline : Option W32) (f : RequestFrame) :
    (s.takeRequestFrame p deadline f).pending = s.pending := by
  rcases s.takeRequestFrame_cases p deadline f with ⟨st, -, h⟩ | ⟨r, -, h⟩ <;> rw [h]
  · exact s.refuseFrame_pending p _ st
  · exact (State.answer_pending _ p _).trans (s.perform_pending p deadline r)

theorem State.arriveOnC_pending (s : State) (deadline : Option W32) (f : RequestFrame) :
    (s.arriveOnC deadline f).pending = s.pending := by
  unfold State.arriveOnC
  split
  · exact s.takeRequestFrame_pending .c deadline f
  · split <;> rfl

theorem State.arrive_pending (s : State) (p : Port) (f : RequestFrame) : (s.arrive p f).pending = s.pending := by
  cases p with
  | a => exact State.takeRequestFrame_pending (s.restartIdle .a) _ _ _
  | b => exact State.takeRequestFrame_pending (s.restartIdle .b) _ _ _
  | c => exact State.arriveOnC_pending (s.restartIdle .c) _ _

theorem State.syncByte_pending (s : State) (p : SyncId) (b : Byte) : (s.syncByte p b).pending = s.pending := by
  simp only [State.syncByte]
  split
  · rfl
  · rfl
  · exact State.arrive_pending (s.onLink p SyncLink.ignoreRest) _ _

theorem State.fetchOne_pending (s : State) (p : SyncId) : (s.fetchOne p).pending = s.pending := by
  simp only [State.fetchOne]
  split
  · rfl
  · split
    · split <;> rfl
    · rfl

theorem State.leadSeen_pending (s : State) (span : Nat) : (s.leadSeen span).pending = s.pending := by
  simp only [State.leadSeen]
  split
  · exact ite_pending rfl
  · split
    · rfl
    · split <;> rfl
  · rfl

theorem State.frameByte_pending (s : State) (b : Byte) : (s.frameByte b).pending = s.pending := by
  simp only [State.frameByte]
  split
  · rfl
  · rfl
  · exact State.arrive_pending (s.onPortC AsyncLink.hunt) _ _

theorem State.huntByte_pending (s : State) (b : Byte) : (s.huntByte b).pending = s.pending := by
  unfold State.huntByte
  split <;> rfl

theorem State.receiveByte_pending (s : State) (b : Byte) (stopHigh : Bool) : (s.receiveByte b stopHigh).pending = s.pending := by
  unfold State.receiveByte
  split
  · rfl
  · exact ite_pending (s.huntByte_pending b)
  · split
    · exact s.frameByte_pending b
    · rfl

theorem State.responseDelivered_pending (s : State) (r : Response) : (s.responseDelivered r).pending = s.pending := by
  unfold State.responseDelivered
  split
  · rfl
  · split
    · rfl
    · exact State.takeRequestFrame_pending (s.onPortC fun k => { k with sending := none, held := none }) _ _ _

end Sys2Proof.Machine
end

section
/-! SUPPORT. What a step runs, and that every command has a next state and leaves the queue of commands to its sender (log 1, log 22). -/

namespace Sys2Proof.Machine

/-- An outcome that is a next state, with the queue of commands of `s`. -/
def State.GoesOn (s : State) (o : Host.Outcome State Fault Refusal) : Prop := ∃ t, o = .next t ∧ t.pending = s.pending

theorem State.done_goesOn {s t : State} (h : t.pending = s.pending) : s.GoesOn t.done := ⟨t.drive, rfl, h⟩

/-- A command of the running part goes on, with its effect or, under RESET, without. -/
theorem State.whenRunning_goesOn {s t : State} {f : State → State} (ht : t.pending = s.pending) (hf : (f t).pending = t.pending) :
    s.GoesOn (t.whenRunning f) := by
  rcases t.whenRunning_cases f with ⟨-, e⟩ | ⟨-, e⟩ <;> rw [e]
  · exact ⟨(f t).drive, rfl, hf.trans ht⟩
  · exact ⟨t.drive, rfl, ht⟩

section
variable (s : State)

/-! ### The blocks' commands -/

theorem execFrameTaken_goesOn (u ia ib : W16) : s.GoesOn (execFrameTaken u ia ib s) :=
  State.whenRunning_goesOn rfl (s.takeFrame_pending _)

theorem execDetectorClose_goesOn : s.GoesOn (execDetectorClose s) := by
  refine State.whenRunning_goesOn rfl ?_
  split
  · rfl
  · exact State.takeDetectorClose_pending _ _

theorem execEnergyClose_goesOn : s.GoesOn (execEnergyClose s) := by
  refine State.whenRunning_goesOn rfl ?_
  split
  · rfl
  · exact State.takeEnergyClose_pending _ _

theorem execPulseHighEnd_goesOn (e : PulseId) : s.GoesOn (execPulseHighEnd e s) := by
  refine State.whenRunning_goesOn rfl ?_
  simp only []
  split
  · exact ite_pending rfl
  · rfl

theorem execPulseGapEnd_goesOn (e : PulseId) : s.GoesOn (execPulseGapEnd e s) := by
  refine State.whenRunning_goesOn rfl ?_
  simp only []
  split
  · exact ite_pending rfl
  · rfl

theorem execEnergyConfig_goesOn : s.GoesOn (execEnergyConfig s) := by
  refine State.whenRunning_goesOn rfl ?_
  split
  · exact State.takeS3_pending _ _
  · rfl

theorem execEnergyFault_goesOn : s.GoesOn (execEnergyFault s) :=
  State.whenRunning_goesOn rfl (by split <;> rfl)

theorem execCaptureFrame_goesOn : s.GoesOn (execCaptureFrame s) := by
  refine State.whenRunning_goesOn rfl ?_
  split
  · rfl
  · exact State.captureFrame_pending _ _

theorem execCaptureTrigger_goesOn : s.GoesOn (execCaptureTrigger s) := by
  refine State.whenRunning_goesOn rfl ?_
  split
  · rfl
  · rename_i g rest drawn hd
    have kept : drawn.pending = s.pending := State.drawTrigger_pending hd
    exact ((drawn.setCapInbox rest).takeTrigger_pending _ _ _).trans kept

theorem execXtrigInEdge_goesOn (high : Bool) : s.GoesOn (execXtrigInEdge high s) :=
  State.whenRunning_goesOn (t := { s with pins := { s.pins with xtrigInHigh := high } }) rfl (State.senseXtrig_pending _ high)

theorem execXtrigOutPulseEnd_goesOn : s.GoesOn (execXtrigOutPulseEnd s) := by
  refine State.whenRunning_goesOn rfl ?_
  split
  · rfl
  · exact ite_pending rfl

theorem execCaptureConfig_goesOn : s.GoesOn (execCaptureConfig s) := by
  refine State.whenRunning_goesOn rfl ?_
  split
  · rfl
  · exact State.takeS2_pending _ _

theorem execCaptureTokenFree_goesOn : s.GoesOn (execCaptureTokenFree s) := by
  refine State.whenRunning_goesOn rfl ?_
  split
  · rfl
  · exact State.retryStarved_pending _

theorem execJournalAppend_goesOn (source : Source) : s.GoesOn (execJournalAppend source s) := by
  refine State.whenRunning_goesOn rfl ?_
  split
  · rfl
  · exact State.takeAppend_pending _ _ _ _

theorem execLeaseExpiry_goesOn : s.GoesOn (execLeaseExpiry s) := by
  refine State.whenRunning_goesOn rfl ?_
  split
  · rfl
  · exact ite_pending (s.endTenure_pending _ _)

theorem execLeaseWarnStart_goesOn : s.GoesOn (execLeaseWarnStart s) := State.whenRunning_goesOn rfl rfl

theorem execIntegrityScrub_goesOn : s.GoesOn (execIntegrityScrub s) := by
  have scrubbed : s.scrub.pending = s.pending := by
    simp only [State.scrub]
    exact ite_pending rfl
  exact State.whenRunning_goesOn rfl (ite_pending scrubbed)

theorem execTickCount_goesOn : s.GoesOn (execTickCount s) := State.whenRunning_goesOn rfl rfl

/-! ### The ports' commands and the resets -/

theorem execIdleExpiry_goesOn (p : Port) : s.GoesOn (execIdleExpiry p s) :=
  State.whenRunning_goesOn rfl (ite_pending (s.endSession_pending p .expired))

theorem execSelectFall_goesOn (p : SyncId) : s.GoesOn (execSelectFall p s) :=
  State.whenRunning_goesOn (t := s.setSelect p true) rfl (by split <;> rfl)

theorem execSelectRise_goesOn (p : SyncId) : s.GoesOn (execSelectRise p s) :=
  State.whenRunning_goesOn (t := s.setSelect p false) rfl (ite_pending rfl)

theorem execFirstByte_goesOn (p : SyncId) (b : Byte) : s.GoesOn (execFirstByte p b s) :=
  State.whenRunning_goesOn rfl (ite_pending rfl)

theorem execRequestByte_goesOn (p : SyncId) (b : Byte) : s.GoesOn (execRequestByte p b s) :=
  State.whenRunning_goesOn rfl (ite_pending (s.syncByte_pending p b))

theorem execFetchByte_goesOn (p : SyncId) : s.GoesOn (execFetchByte p s) :=
  State.whenRunning_goesOn rfl (ite_pending (s.fetchOne_pending p))

theorem execFrameGapTimeout_goesOn (p : Port) : s.GoesOn (execFrameGapTimeout p s) :=
  State.whenRunning_goesOn rfl (by cases p <;> exact ite_pending rfl)

theorem execLeadPattern_goesOn (i1 i2 i3 i4 : Nat) (next : Option Nat) : s.GoesOn (execLeadPattern i1 i2 i3 i4 next s) :=
  State.whenRunning_goesOn rfl (ite_pending (s.leadSeen_pending _))

theorem execPortCByte_goesOn (b : Byte) (stopHigh : Bool) : s.GoesOn (execPortCByte b stopHigh s) :=
  State.whenRunning_goesOn rfl (s.receiveByte_pending b stopHigh)

theorem execResponseSent_goesOn : s.GoesOn (execResponseSent s) := by
  refine State.whenRunning_goesOn rfl ?_
  split
  · rfl
  · exact s.responseDelivered_pending _

theorem execLineBreak_goesOn : s.GoesOn (execLineBreak s) := by
  have ended : (if (s.session .c).isSome then (s.endSession .c .portReset).1 else s).pending = s.pending :=
    ite_pending (s.endSession_pending .c .portReset)
  exact State.whenRunning_goesOn rfl ended

theorem execBadFrame_goesOn (p : Port) (tag code : Byte) (payload : List Byte) (check : Byte) :
    s.GoesOn (execBadFrame p tag code payload check s) := State.whenRunning_goesOn rfl (s.arrive_pending p _)

theorem execRestartTimeout_goesOn : s.GoesOn (execRestartTimeout s) := by
  refine State.whenRunning_goesOn rfl ?_
  split
  · rfl
  · exact ite_pending rfl

theorem execPinReset_goesOn : s.GoesOn (execPinReset s) := by
  unfold execPinReset
  split <;> exact State.done_goesOn rfl

theorem execResetRelease_goesOn : s.GoesOn (execResetRelease s) := by
  unfold execResetRelease
  split <;> exact State.done_goesOn rfl

/-- Every command goes on: the requests by the arrival of their frames, the others one by one. -/
theorem exec_goesOn (c : Instr) : s.GoesOn (exec c s) := by
  cases hr : asRequest c with
  | some r =>
    obtain ⟨p, tag, r⟩ := r
    rw [exec_request hr]
    exact State.whenRunning_goesOn rfl (s.arrive_pending p _)
  | none =>
    cases c with
    | powerOnReset => exact State.done_goesOn rfl
    | pinReset => exact execPinReset_goesOn s
    | frameTaken u ia ib => exact execFrameTaken_goesOn s u ia ib
    | detectorClose => exact execDetectorClose_goesOn s
    | energyClose => exact execEnergyClose_goesOn s
    | pulseHighEnd e => exact execPulseHighEnd_goesOn s e
    | pulseGapEnd e => exact execPulseGapEnd_goesOn s e
    | energyConfig => exact execEnergyConfig_goesOn s
    | energyFault => exact execEnergyFault_goesOn s
    | captureFrame => exact execCaptureFrame_goesOn s
    | captureTrigger => exact execCaptureTrigger_goesOn s
    | xtrigInEdge high => exact execXtrigInEdge_goesOn s high
    | xtrigOutPulseEnd => exact execXtrigOutPulseEnd_goesOn s
    | captureConfig => exact execCaptureConfig_goesOn s
    | captureTokenFree => exact execCaptureTokenFree_goesOn s
    | journalAppend source => exact execJournalAppend_goesOn s source
    | leaseExpiry => exact execLeaseExpiry_goesOn s
    | leaseWarnStart => exact execLeaseWarnStart_goesOn s
    | integrityScrub => exact execIntegrityScrub_goesOn s
    | idleExpiry p => exact execIdleExpiry_goesOn s p
    | restartTimeout => exact execRestartTimeout_goesOn s
    | selectFall p => exact execSelectFall_goesOn s p
    | selectRise p => exact execSelectRise_goesOn s p
    | firstByte p b => exact execFirstByte_goesOn s p b
    | requestByte p b => exact execRequestByte_goesOn s p b
    | fetchByte p => exact execFetchByte_goesOn s p
    | frameGapTimeout p => exact execFrameGapTimeout_goesOn s p
    | leadPattern i1 i2 i3 i4 next => exact execLeadPattern_goesOn s i1 i2 i3 i4 next
    | portCByte b stopHigh => exact execPortCByte_goesOn s b stopHigh
    | responseSent => exact execResponseSent_goesOn s
    | lineBreak => exact execLineBreak_goesOn s
    | badFrame p tag code payload check => exact execBadFrame_goesOn s p tag code payload check
    | tickCount => exact execTickCount_goesOn s
    | resetRelease => exact execResetRelease_goesOn s
    | _ => cases hr

end

/-- Settles O2: each command is work of a running part that leaves the queue of commands, or a reset that keeps it. -/
theorem everyCommandGoesOn : Obligations.EveryCommandGoesOn := fun c s => exec_goesOn s c

/-- A step with a command waiting runs it on the state with the rest of the queue. -/
theorem step_setPending_cons (c : Instr) (rest : List Instr) (s : State) :
    step (s.setPending (c :: rest)) = exec c (s.setPending rest) := rfl

/-- A step with no command waiting idles (log 22). -/
theorem step_idle {s : State} (h : s.pending = []) : step s = .next s := by
  unfold step
  rw [h]

/-- Settles O1: a queue with a command in front, and an empty one. -/
theorem stepRunsFrontCommand : Obligations.StepRunsFrontCommand := ⟨step_setPending_cons, fun _ => step_idle⟩

end Sys2Proof.Machine
end
